-- ==== Sys2Proof/Word.lean ====
section
/-! DEFINITION. The word types of the block: the widths of everything its queues, serial lines and
registers move (spec/00_scope.md R7, R11; spec/30_encoding.md R54 to R58). All values are unsigned. -/

namespace Sys2Proof

/-- An entry of the bridging queue, and a byte of a selector word. -/
abbrev Byte := BitVec 8

/-- A command word, CMD_WIDTH = 14 bits (R54). -/
abbrev CmdWord := BitVec 14

/-- A bias word, BIAS_WIDTH = 7 bits (R55). -/
abbrev BiasWord := BitVec 7

/-- An even or odd sample, SAMPLE_WIDTH = 14 bits (R57). -/
abbrev Sample := BitVec 14

/-- The order in which a serializer sends the bits of a word (R35). -/
inductive BitOrder where
  | msbFirst
  | lsbFirst
  deriving DecidableEq, Repr, Inhabited

end Sys2Proof
end

