-- ==== Sys2Proof/Config.lean ====
section
/-! DEFINITION. What is fixed for one machine (the configuration parameters of spec/00_scope.md R8), what
the environment supplies at each step (a draw), and the free values the spec leaves open. -/

namespace Sys2Proof

/-- Fixed for every build (R7). -/
abbrev Config.cmdWidth : Nat := 14
/-- Fixed for every build (R7). -/
abbrev Config.biasWidth : Nat := 7
/-- Fixed for every build (R7): command words in a frame. -/
abbrev Config.cmdCount : Nat := 12
/-- Fixed for every build (R7): latch cycles of one captured pair. -/
abbrev Config.pairCycles : Nat := 14

/-- The default of RST_HOLD (R8; spec/92_eei_decisions.md D37). -/
abbrev Config.defaultRstHold : Nat := 7

/-- The default of BIAS_WRITES, COLS - 1 (R8; spec/92_eei_decisions.md D37). -/
abbrev Config.defaultBiasWrites (cols : Nat) : Nat := cols - 1

/-- The configuration parameters of R8, under the spec's names. They are plain integers here; R10 says
which combinations are valid (Machine/Validity.lean). A negative value, which R10 also refuses, has no
representation. A configuration that gives no BIAS_WRITES or no RST_HOLD has the default of R8; every other
parameter must be given (D37). -/
structure Params where
  /-- CLK_FREQ_HZ: the sensor clock frequency in Hz. -/
  clkFreqHz : Nat
  /-- T_INIT_US: the delay of the power state Init, in microseconds. -/
  tInitUs : Nat
  /-- T_3V3_US: the delay of Rail3V3. -/
  t3v3Us : Nat
  /-- T_2V5_US: the delay of Rail2V5. -/
  t2v5Us : Nat
  /-- INIT_CYCLES: the length of the FrameController's Init. -/
  initCycles : Nat
  /-- CMD_WORDS[0..11], in send order. -/
  cmdWords : List Nat
  /-- CMD_BIT_ORDER. -/
  cmdBitOrder : BitOrder
  /-- BIAS_BIT_ORDER. -/
  biasBitOrder : BitOrder
  /-- BIAS_VALUE. -/
  biasValue : Nat
  /-- COLS. -/
  cols : Nat
  /-- BIAS_WRITES: bias writes in a burst; default COLS - 1. -/
  biasWrites : Nat := Config.defaultBiasWrites cols
  /-- ROWS. -/
  rows : Nat
  /-- CMD_TO_LINE_START. -/
  cmdToLineStart : Nat
  /-- BIAS_TO_LATCH. -/
  biasToLatch : Nat
  /-- LINE_START_OFFSET. -/
  lineStartOffset : Nat
  /-- CMD_Q_DEPTH. -/
  cmdQDepth : Nat
  /-- BIAS_Q_DEPTH. -/
  biasQDepth : Nat
  /-- BRIDGE_DEPTH. -/
  bridgeDepth : Nat
  /-- RST_HOLD; default 7. -/
  rstHold : Nat := Config.defaultRstHold
  /-- MARKER_VARIANT: no effect on the core (spec/92_eei_decisions.md D28). -/
  markerVariant : Bool
  deriving DecidableEq, Repr, Inhabited

/-- The conditions of R10, in the order R10 writes them; R131 asks for the first one that fails. -/
inductive ParamCheck where
  /-- CMD_WORDS has 12 entries, each below 2^14. -/
  | cmdWords
  /-- BIAS_VALUE < 2^7. -/
  | biasValue
  /-- CLK_FREQ_HZ >= 1. -/
  | clkFreqHz
  /-- INIT_CYCLES >= 1. -/
  | initCycles
  /-- COLS >= 2. -/
  | cols
  /-- ROWS >= 1. -/
  | rows
  /-- CMD_TO_LINE_START >= 1. -/
  | cmdToLineStart
  /-- LINE_START_OFFSET >= 1. -/
  | lineStartOffset
  /-- BIAS_WRITES >= 1. -/
  | biasWrites
  /-- BIAS_TO_LATCH <= CMD_TO_LINE_START - 1. -/
  | biasToLatchInFrameStart
  /-- BIAS_TO_LATCH <= LINE_START_OFFSET - 1. -/
  | biasToLatchInLineGap
  /-- CMD_Q_DEPTH >= 1. -/
  | cmdQDepth
  /-- BIAS_Q_DEPTH >= 1. -/
  | biasQDepth
  /-- BRIDGE_DEPTH >= 1. -/
  | bridgeDepth
  /-- RST_HOLD >= 1. -/
  | rstHold
  deriving DecidableEq, Repr, Inhabited

/-- Who moves in a step: an agent (R6), or the environment asserting the system reset (R145). -/
inductive Turn where
  | sensor
  | host
  | reset
  deriving DecidableEq, Repr, Inhabited

/-- What the environment supplies in one step. None of it is constrained here; the signals of
Machine/Flags.lean apply the constraints the spec states (spec/20_memory.md R48). -/
structure Draw where
  /-- Which agent's clock ticks, or the system reset (spec/93 U12, U18). -/
  turn : Turn
  /-- The even lane bit of a sensor cycle (R87). -/
  laneE : Bool
  /-- The odd lane bit of a sensor cycle (R87). -/
  laneO : Bool
  /-- Whether the sensor side of the bridge sees the space there is (R48). -/
  bwSees : Bool
  /-- Whether the host side of the bridge sees the data there is (R48). -/
  brSees : Bool
  /-- Whether the host sink accepts a byte (R125). -/
  hostReady : Bool
  /-- The debug bus of a sensor cycle (R141). -/
  debug : Byte
  deriving DecidableEq, Repr, Inhabited

/-- The free inputs of a step: no body, so nothing can be proved of a value. A step takes them at a fresh
index each time (log entry 2). -/
opaque Config.freeDraw : Nat → Draw

/-- The configuration of the spec's program P1 (spec/95_test_vectors.md section 3). DESIGN CHOICE: the
spec leaves the values open but for two defaults, which P1's BIAS_WRITES and RST_HOLD are (D37); `State.reset`
needs a value of each (log entry 1). -/
def Config.p1 : Params where
  clkFreqHz := 1000000
  tInitUs := 2
  t3v3Us := 3
  t2v5Us := 1
  initCycles := 3
  cmdWords := [0x2001, 0x2002, 0x2003, 0x2004, 0x2005, 0x2006,
    0x2007, 0x2008, 0x2009, 0x200A, 0x200B, 0x200C]
  cmdBitOrder := .msbFirst
  biasBitOrder := .msbFirst
  biasValue := 0x41
  biasWrites := 3
  cols := 4
  rows := 2
  cmdToLineStart := 5
  biasToLatch := 2
  lineStartOffset := 4
  cmdQDepth := 9
  biasQDepth := 4
  bridgeDepth := 8
  rstHold := 7
  markerVariant := true

end Sys2Proof
end

