-- ==== Sys2Proof/Machine/State.lean ====
section
/-! DEFINITION. The state of the machine (spec/10_state.md), grouped by the component that owns it (R16), its
reset value (spec/70_reset_and_hazards.md R146), and the reasons a step can stop. -/

namespace Sys2Proof.Machine

/-- PowerState, `ps_state` (R59). -/
inductive PowerState where
  | init
  | rail3v3
  | rail2v5
  | boostEnabled
  deriving DecidableEq, Repr, Inhabited

/-- Emit state, `emit_st` (R61). -/
inductive EmitState where
  | evenLow
  | evenHigh
  | oddLow
  | oddHigh
  deriving DecidableEq, Repr, Inhabited

/-- The values of `fc_state` that name a state (R60); 9 .. 15 are reserved (R66). -/
abbrev Fc.powerup : BitVec 4 := 0
/-- R60. -/
abbrev Fc.init : BitVec 4 := 1
/-- R60. -/
abbrev Fc.sendCmd : BitVec 4 := 2
/-- R60. -/
abbrev Fc.sendCmdStrobe : BitVec 4 := 3
/-- R60. -/
abbrev Fc.sendCmdAdvance : BitVec 4 := 4
/-- R60. -/
abbrev Fc.waitFrameStart : BitVec 4 := 5
/-- R60. -/
abbrev Fc.readLine : BitVec 4 := 6
/-- R60. -/
abbrev Fc.waitLine : BitVec 4 := 7
/-- R60. -/
abbrev Fc.interFrame : BitVec 4 := 8

/-- PowerSequencer registers (R18). Counters are plain numbers: their widths are not observable and no rule
wraps one (R139; log entry 8). -/
structure Power where
  /-- `ps_state`. -/
  state : PowerState
  /-- `ps_cnt`. -/
  cnt : Nat
  deriving DecidableEq, Repr, Inhabited

/-- FrameController registers (R19), without the bias injection's. -/
structure Frame where
  /-- `fc_state`. -/
  state : BitVec 4
  /-- `init_cnt`. -/
  initCnt : Nat
  /-- `cmd_idx`, 0 .. 11. -/
  cmdIdx : Fin 12
  /-- `line_cnt`. -/
  lineCnt : Nat
  /-- `row_cnt`. -/
  rowCnt : Nat
  deriving DecidableEq, Repr, Inhabited

/-- Registers of the bias injection sub-process (R19). -/
structure Injector where
  /-- `bias_active`, the bias-latch trigger. -/
  active : Bool
  /-- `bias_phase`: false is the write step, true the strobe step. -/
  phase : Bool
  /-- `bias_cnt`. -/
  cnt : Nat
  deriving DecidableEq, Repr, Inhabited

/-- The registers of a SerialOutputEngine of word width `w` (R20). -/
structure Serializer (w : Nat) where
  /-- `X_sr`. -/
  sr : BitVec w
  /-- `X_have_word`. -/
  haveWord : Bool
  /-- `X_bitcnt`. -/
  bitcnt : Nat
  deriving DecidableEq, Repr, Inhabited

/-- SampleDeserializer registers (R21). -/
structure Deserializer where
  /-- `acc_e`. -/
  accE : Sample
  /-- `acc_o`. -/
  accO : Sample
  /-- `dcnt`. -/
  dcnt : Nat
  /-- `out_e`. -/
  outE : Sample
  /-- `out_o`. -/
  outO : Sample
  /-- `have_data`. -/
  haveData : Bool
  /-- `emit_st`. -/
  emitSt : EmitState
  deriving DecidableEq, Repr, Inhabited

/-- Fault codes (spec/60_exceptions.md R131), code 0 being the absence of a fault. Each is raised by the
operation R131 names; recording one is safe: it marks a point at which the source gives no behaviour. -/
inductive FaultCode where
  /-- 1, by FC.SENDCMD. -/
  | cmdQueueOverflow
  /-- 2, by BIAS.WRITE. -/
  | biasQueueOverflow
  /-- 3, by the bias trigger. -/
  | biasRetrigger
  /-- 4, by a sensor cycle whose `fc_state` is 9 .. 15. -/
  | illegalState
  /-- 5, by the configuration check; it refuses the configuration and never stands in `fault` (R132). -/
  | paramInvalid
  deriving DecidableEq, Repr, Inhabited

/-- A recorded fault: the code, the sensor cycle, and the value R131 says is recorded with it. -/
structure FaultRecord where
  code : FaultCode
  cycle : Nat
  value : Nat
  deriving DecidableEq, Repr, Inhabited

/-- Every register of the block, the three queues, and the model fields of R28. -/
structure Regs where
  /-- PowerSequencer. -/
  power : Power
  /-- FrameController. -/
  frame : Frame
  /-- Bias injection. -/
  inj : Injector
  /-- CommandSerializer. -/
  cmdSer : Serializer 14
  /-- BiasSerializer. -/
  biasSer : Serializer 7
  /-- SampleDeserializer. -/
  des : Deserializer
  /-- `cmd_q`, oldest entry first (R22). -/
  cmdQ : List CmdWord
  /-- `bias_q`. -/
  biasQ : List BiasWord
  /-- `bridge_q`. -/
  bridgeQ : List Byte
  /-- `rst_cnt` (R23). -/
  rstCnt : Nat
  /-- The bytes popped into the host byte stream, oldest first (R123); outside the block (R145). -/
  hostStream : List Byte
  /-- `fault` (R28). -/
  fault : Option FaultRecord
  /-- The ghost `overrun_count` (R28). -/
  overrunCount : Nat
  /-- The number of the sensor cycle, 0 at the first one out of reset (R147, R131; log entry 11). -/
  cycle : Nat
  deriving DecidableEq, Repr, Inhabited

/-- What a step changes: the block's state and the inputs it is given. `now` holds what every register holds at
the start of the current cycle, `nxt` what it is scheduled to hold from the start of the next one (R13); between
steps they are equal (log entry 5). No configuration constant stands here (R25). -/
structure Block where
  /-- Start-of-cycle values: what a name on the right-hand side of a rule reads. -/
  now : Regs
  /-- Scheduled values: what `<-` writes. -/
  nxt : Regs
  /-- The inputs of the next steps, the next one first; when it is empty they are free (log entry 2). -/
  script : List Draw
  /-- The index of the next free draw (log entry 2). -/
  tick : Nat
  deriving DecidableEq, Repr, Inhabited

/-- A block together with the configuration it is run under: the form in which the operations and the host's
interface take the step relation's parameter and its state at once. The configuration is no part of what a step
changes: the step relation itself is `stepUnder` of Machine/Step.lean, which takes it as a parameter and steps a
`Block` (R25; log entry 1). -/
structure State extends Block where
  /-- The parameter of the step relation (R25). -/
  cfg : Params
  deriving DecidableEq, Repr, Inhabited

/-- Why the machine stops. -/
inductive Fault where
  /-- Raised by `step` when an agent would move after a fault was recorded: the run has ended, and only a
  system reset starts a new one (R133). Safe. -/
  | runEnded (code : FaultCode)
  /-- Raised by SER.LOAD or HOST.XFER run on an empty queue, where their selectors never choose them: the pop
  is not legal (R32). Safe: `step` never reaches it. -/
  | illegalPop
  /-- Raised by an EMIT operation run on a full bridging queue, where its selector never chooses it: the push
  is not legal (R31). Safe: `step` never reaches it. -/
  | illegalPush
  /-- Raised by `step` for a selector word that names no operation and is no reserved `fc_state`. Safe: the
  selectors of every state name one. -/
  | badSelector
  deriving DecidableEq, Repr

/-- Why the machine gives no meaning. -/
inductive Refusal where
  /-- Raised by `exec` for an operation without a meaning; none is left. Safe. -/
  | notModelled (mnemonic : String)
  /-- Raised by `step` (and by FC.SENDCMD when the configuration has no such command word) for a
  configuration that breaks R10, with the first condition that fails: such a configuration has no run (R132).
  Safe. -/
  | paramInvalid (check : ParamCheck)
  deriving DecidableEq, Repr

/-- The reset values of the PowerSequencer (R146). -/
def Power.reset : Power := ⟨.init, 0⟩

/-- The reset values of the FrameController (R146). -/
def Frame.reset : Frame := ⟨Fc.powerup, 0, 0, 0, 0⟩

/-- The reset values of the bias injection (R146). -/
def Injector.reset : Injector := ⟨false, false, 0⟩

/-- The reset values of a serializer (R146). -/
def Serializer.reset (w : Nat) : Serializer w := ⟨0, false, 0⟩

/-- The reset values of the SampleDeserializer (R146). -/
def Deserializer.reset : Deserializer := ⟨0, 0, 0, 0, 0, false, .evenLow⟩

/-- Every register and model field at its reset value, all queues empty (R146), and a host stream of which
nothing has been seen. -/
def Regs.reset : Regs where
  power := Power.reset
  frame := Frame.reset
  inj := Injector.reset
  cmdSer := Serializer.reset 14
  biasSer := Serializer.reset 7
  des := Deserializer.reset
  cmdQ := []
  biasQ := []
  bridgeQ := []
  rstCnt := 0
  hostStream := []
  fault := none
  overrunCount := 0
  cycle := 0

/-- The block right after reset, its inputs free: it depends on no configuration (R146). -/
def Block.reset : Block := ⟨Regs.reset, Regs.reset, [], 0⟩

/-- A block under a configuration. -/
def Block.under (b : Block) (cfg : Params) : State := ⟨b, cfg⟩

/-- The machine of any configuration right after reset. -/
def State.resetOf (cfg : Params) : State := Block.reset.under cfg

/-- The machine right after reset, in the host's form, which has no argument for a configuration. The spec leaves
the configuration open but for two defaults (D37); this names program P1's (DESIGN CHOICE, log entry 1). The machine of every other
configuration is `State.resetOf`. -/
def State.reset : State := State.resetOf Config.p1

end Sys2Proof.Machine
end

