-- ==== Sys2Proof/Machine/Operands.lean ====
section
/-! DEFINITION. Operand forms: the constants an operation takes from the configuration (spec/30_encoding.md
R65), the bit functions of spec/00_scope.md R12, the bytes of a record (R58) and the queue primitives of
spec/20_memory.md R30 to R33. -/

namespace Sys2Proof

/-- A delay in cycles from microseconds: floor, at least 1 (R9). -/
def Params.delay (p : Params) (us : Nat) : Nat := max 1 (us * p.clkFreqHz / 1000000)

/-- D_INIT (R9). -/
def Params.dInit (p : Params) : Nat := p.delay p.tInitUs

/-- D_3V3 (R9). -/
def Params.d3v3 (p : Params) : Nat := p.delay p.t3v3Us

/-- D_2V5 (R9). -/
def Params.d2v5 (p : Params) : Nat := p.delay p.t2v5Us

/-- LINE_CYCLES, L = 7 x COLS (R7). -/
def Params.lineCycles (p : Params) : Nat := 7 * p.cols

/-- INTERFRAME_CYCLES = L + G (R7). -/
def Params.interFrameCycles (p : Params) : Nat := p.lineCycles + p.lineStartOffset

/-- CMD_WORDS[k], taken whole (R65). -/
def Params.cmdWord? (p : Params) (k : Nat) : Option CmdWord :=
  (p.cmdWords[k]?).map (BitVec.ofNat 14)

/-- BIAS_VALUE, taken whole (R65). -/
def Params.biasWord (p : Params) : BiasWord := BitVec.ofNat 7 p.biasValue

namespace Machine

/-- `rev14(v)[i] = v[13 - i]` (R12). -/
def rev14 (v : Sample) : Sample := v.reverse

/-- `ext(v, W, order)`: the extremal bit (R12). -/
def ext {w : Nat} (o : BitOrder) (v : BitVec w) : Bool :=
  match o with
  | .msbFirst => v.msb
  | .lsbFirst => v.getLsbD 0

/-- `shift(v, W, order)`: one place toward the extremal end, zero fill (R12). -/
def shift {w : Nat} (o : BitOrder) (v : BitVec w) : BitVec w :=
  match o with
  | .msbFirst => v <<< 1
  | .lsbFirst => v >>> 1

/-- `{acc[12:0], lane}`: the newest bit enters at bit 0 (R90). -/
def accumulate (acc : Sample) (lane : Bool) : Sample := (acc.setWidth 13).concat lane

/-- The low byte of a sample, bits 7:0 (R58). -/
def lowByte (v : Sample) : Byte := v.extractLsb' 0 8

/-- The high byte of a sample, bits 13:8 with two zeros above (R58). -/
def highByte (v : Sample) : Byte := (v.extractLsb' 8 6).setWidth 8

/-- `r_rdy(q)`: the consumer has data (R30). -/
def rRdy {α : Type} (q : List α) : Bool := !q.isEmpty

/-- `w_rdy(q)`: the producer has space (R30). -/
def wRdy {α : Type} (q : List α) (depth : Nat) : Bool := q.length < depth

/-- The queue after `QPush(q, v)` (R31). -/
def qPush {α : Type} (q : List α) (v : α) : List α := q ++ [v]

/-- The queue after `QPop(q)` (R32). -/
def qPop {α : Type} (q : List α) : List α := q.tail

/-- The binary code of `ps_state` (R59). -/
def PowerState.code : PowerState → BitVec 2
  | .init => 0
  | .rail3v3 => 1
  | .rail2v5 => 2
  | .boostEnabled => 3

/-- The binary code of `emit_st` (R61). -/
def EmitState.code : EmitState → BitVec 2
  | .evenLow => 0
  | .evenHigh => 1
  | .oddLow => 2
  | .oddHigh => 3

/-- The number of a fault code (R131). -/
def FaultCode.number : FaultCode → Nat
  | .cmdQueueOverflow => 1
  | .biasQueueOverflow => 2
  | .biasRetrigger => 3
  | .illegalState => 4
  | .paramInvalid => 5

/-- The place of a fault code in the order of R134: of several in a cycle, the first is recorded. -/
def FaultCode.rank : FaultCode → Nat
  | .illegalState => 0
  | .biasRetrigger => 1
  | .cmdQueueOverflow => 2
  | .biasQueueOverflow => 3
  | .paramInvalid => 4

end Machine

end Sys2Proof
end

