-- ==== Sys2Proof/Machine/Ops.lean ====
section
/-! DEFINITION. The named operations over the state: the inputs of the step, scheduling a write (`<-`), the
start and the end of a cycle (spec/00_scope.md R13), and raising a fault (spec/60_exceptions.md R133, R134),
which is what this block has in the place of taking an exception. There is no return from one (R137): only
SYS.RESET clears a fault. -/

namespace Sys2Proof.Machine

/-- The outcome of an operation or a step. -/
abbrev Result := Host.Outcome State Fault Refusal

/-- Replace the PowerSequencer's registers. -/
def Regs.setPower (r : Regs) (v : Power) : Regs := { r with power := v }
/-- Replace the FrameController's registers. -/
def Regs.setFrame (r : Regs) (v : Frame) : Regs := { r with frame := v }
/-- Replace the bias injection's registers. -/
def Regs.setInj (r : Regs) (v : Injector) : Regs := { r with inj := v }
/-- Replace the CommandSerializer's registers. -/
def Regs.setCmdSer (r : Regs) (v : Serializer 14) : Regs := { r with cmdSer := v }
/-- Replace the BiasSerializer's registers. -/
def Regs.setBiasSer (r : Regs) (v : Serializer 7) : Regs := { r with biasSer := v }
/-- Replace the SampleDeserializer's registers. -/
def Regs.setDes (r : Regs) (v : Deserializer) : Regs := { r with des := v }
/-- Replace `cmd_q`. -/
def Regs.setCmdQ (r : Regs) (v : List CmdWord) : Regs := { r with cmdQ := v }
/-- Replace `bias_q`. -/
def Regs.setBiasQ (r : Regs) (v : List BiasWord) : Regs := { r with biasQ := v }
/-- Replace `bridge_q`. -/
def Regs.setBridgeQ (r : Regs) (v : List Byte) : Regs := { r with bridgeQ := v }
/-- Replace `rst_cnt`. -/
def Regs.setRstCnt (r : Regs) (v : Nat) : Regs := { r with rstCnt := v }
/-- Replace the host stream. -/
def Regs.setHostStream (r : Regs) (v : List Byte) : Regs := { r with hostStream := v }
/-- Replace `fault`. -/
def Regs.setFault (r : Regs) (v : Option FaultRecord) : Regs := { r with fault := v }
/-- Replace `overrun_count`. -/
def Regs.setOverrunCount (r : Regs) (v : Nat) : Regs := { r with overrunCount := v }
/-- Replace the sensor cycle number. -/
def Regs.setCycle (r : Regs) (v : Nat) : Regs := { r with cycle := v }

/-- The inputs of the current step: the head of the script, or a free draw (log entry 2). -/
def State.draw (s : State) : Draw :=
  match s.script with
  | d :: _ => d
  | [] => Config.freeDraw s.tick

/-- `<-`: schedule a write for the start of the next cycle (R13). -/
def State.sched (s : State) (f : Regs → Regs) : State := { s with nxt := f s.nxt }

/-- The start of a cycle: a register no rule writes keeps its value (R13). -/
def State.startCycle (s : State) : State := { s with nxt := s.now }

/-- Of two faults of one cycle, the one R134 records. -/
def FaultRecord.first (f g : FaultRecord) : FaultRecord := if f.code.rank ≤ g.code.rank then f else g

/-- `raise Fault(code)` with the value R131 records: the fault is scheduled with the number of the current
sensor cycle, unless the cycle has already met one of higher priority (R134). -/
def State.raiseFault (s : State) (code : FaultCode) (value : Nat) : State :=
  let f : FaultRecord := ⟨code, s.now.cycle, value⟩
  match s.nxt.fault with
  | none => s.sched (·.setFault (some f))
  | some g => s.sched (·.setFault (some (g.first f)))

/-- The end of a cycle: all scheduled writes take effect together (R13), or, when the cycle raised a fault,
none does and the fault is recorded (R133). -/
def State.commit (s : State) : State :=
  match s.nxt.fault with
  | none => { s with now := s.nxt }
  | some f => { s with now := s.now.setFault (some f), nxt := s.now.setFault (some f) }

/-- The inputs of the step are used up. -/
def State.nextDraw (s : State) : State := { s with script := s.script.tail, tick := s.tick + 1 }

/-- `Outcome` is a chain of steps: go on from a next state, stop otherwise. -/
def andThen (r : Result) (f : State → Result) : Result :=
  match r with
  | .next s => f s
  | .fault e => .fault e
  | .refused e => .refused e

/-- The same outcome with its next state seen through `f`. -/
def mapNext {σ τ : Type} (f : σ → τ) (r : Host.Outcome σ Fault Refusal) : Host.Outcome τ Fault Refusal :=
  match r with
  | .next s => .next (f s)
  | .fault e => .fault e
  | .refused e => .refused e

end Sys2Proof.Machine
end

