-- ==== Sys2Proof/Machine/Flags.lean ====
section
/-! DEFINITION. Flags and combinational signals (spec/10_state.md R24, R26): what holds its value during a
cycle and is seen by every rule of that cycle (spec/00_scope.md R13). -/

namespace Sys2Proof.Machine

/-- `ready`, seen by the FrameController (R72). -/
def Regs.ready (r : Regs) : Bool := r.power.state == .boostEnabled

/-- `X_done` of a serializer and its queue (R80). -/
def serDone {w : Nat} (x : Serializer w) (q : List (BitVec w)) : Bool := !x.haveWord && !rRdy q

/-- `cmd_done` (R80). -/
def Regs.cmdDone (r : Regs) : Bool := serDone r.cmdSer r.cmdQ

/-- `bias_done` (R80). -/
def Regs.biasDone (r : Regs) : Bool := serDone r.biasSer r.biasQ

/-- `X_out` of a serializer and its queue (R80): the head's extremal bit in a load cycle, else the shift
register's. With R104 to R106 and R118 the first command bit so leaves I + 2 cycles after `ready`, where R154's table
has I + 1 (DEDUCED, log entry 18). -/
def serOut {w : Nat} (o : BitOrder) (x : Serializer w) (q : List (BitVec w)) : Bool :=
  match x.haveWord, q with
  | false, head :: _ => ext o head
  | _, _ => ext o x.sr

/-- `latch_en` (R88). -/
def Regs.latchEn (r : Regs) : Bool := r.frame.state == Fc.readLine

/-- `sel_des` chooses DES.CAP in this cycle (R91). -/
def Regs.captures (r : Regs) : Bool := r.latchEn && r.des.dcnt == 13

/-- `sensor_rst` (R23). -/
def State.sensorRst (s : State) : Bool := s.now.rstCnt < s.cfg.rstHold

/-- `bw_rdy`: never true without space, otherwise as drawn (R48). -/
def State.bwRdy (s : State) : Bool := s.draw.bwSees && wRdy s.now.bridgeQ s.cfg.bridgeDepth

/-- `br_rdy`: never true without data, otherwise as drawn (R48). -/
def State.brRdy (s : State) : Bool := s.draw.brSees && rRdy s.now.bridgeQ

/-- The host side transfers a byte in this cycle (R63, `sel_host` bit 0). -/
def State.hostTakes (s : State) : Bool := s.brRdy && s.draw.hostReady

/-- `sel_emit` chooses EMIT.ODD_HI in this cycle (R98). -/
def State.emitsOddHigh (s : State) : Bool := s.now.des.haveData && s.bwRdy && s.now.des.emitSt == .oddHigh

/-- A DES.CAP of this cycle is an overrun (R92). -/
def State.overruns (s : State) : Bool := s.now.des.haveData && !s.emitsOddHigh

/-- `bias_trigger` (R102): raised in one cycle of WaitFrameStart (R109) and one of WaitLine (R111). -/
def State.biasTrigger (s : State) : Bool :=
  (s.now.frame.state == Fc.waitFrameStart && s.now.cmdDone
    && s.now.frame.lineCnt + s.cfg.biasToLatch + 1 == s.cfg.cmdToLineStart)
  || (s.now.frame.state == Fc.waitLine
    && s.now.frame.lineCnt + s.cfg.biasToLatch + 1 == s.cfg.lineStartOffset)

/-- The combinational outputs of the components that other components read (R24, R72, R80, R88). None of them is a pin
of the block: `ready` alone is seen outside, as the rail `en_boost` (R24). In a host or a reset step they are the
levels the sensor domain holds (log entry 16). -/
structure Signals where
  ready : Bool
  cmdDone : Bool
  biasDone : Bool
  latchEn : Bool
  deriving DecidableEq, Repr

/-- The signals while the sensor domain is held in reset (R147): `ready` and `latch_en` are 0 (R72), the serializers
are done (R80). -/
def Signals.held : Signals := ⟨false, true, true, false⟩

/-- The signals of a sensor cycle out of reset (R72, R80, R88). -/
def Signals.running (r : Regs) : Signals := ⟨r.ready, r.cmdDone, r.biasDone, r.latchEn⟩

/-- The signals between the components in the current cycle. -/
def State.signals (s : State) : Signals := if s.sensorRst then Signals.held else Signals.running s.now

/-- The sensor domain's output pins of R26 in a cycle; its other outputs, the bytes of the host stream, are popped
from the bridging queue (R123), and its inputs are in the draw. The spec gives the pins per sensor cycle; what they
show in a host or a reset step is the model's choice (DESIGN CHOICE, log entry 16): the levels the sensor domain
holds, and on `debug` a fresh free byte. -/
structure Pins where
  en3v3 : Bool
  en2v5 : Bool
  enBoost : Bool
  /-- One period of the sensor clock passes in this step (R140). -/
  sensorClk : Bool
  cmdOut : Bool
  biasOut : Bool
  /-- The debug bus, a free output of a sensor cycle (R141). In a host or a reset step the spec gives it no value:
  there too it is the free byte of that step's own draw (DESIGN CHOICE, log entry 16). -/
  debug : Byte
  deriving DecidableEq, Repr

/-- The pins while the sensor domain is held in reset (R147): the rails (R72) and the serial lines (R80) are 0. `debug`
is the free byte of this step's draw, whoever moves (DESIGN CHOICE, log entry 16). -/
def Pins.held (s : State) : Pins where
  en3v3 := false
  en2v5 := false
  enBoost := false
  sensorClk := s.draw.turn == .sensor
  cmdOut := false
  biasOut := false
  debug := s.draw.debug

/-- The pins of a sensor cycle out of reset (R72, R80, R140, R141). In a host or a reset step the levels are those the
sensor domain holds, `sensorClk` is false, and `debug` is a fresh free byte of that step's own draw, no held one: the
spec gives the bus per sensor cycle only (DESIGN CHOICE, log entry 16). -/
def Pins.running (s : State) : Pins where
  en3v3 := s.now.power.state != .init
  en2v5 := s.now.power.state == .rail2v5 || s.now.power.state == .boostEnabled
  enBoost := s.now.power.state == .boostEnabled
  sensorClk := s.draw.turn == .sensor
  cmdOut := serOut s.cfg.cmdBitOrder s.now.cmdSer s.now.cmdQ
  biasOut := serOut s.cfg.biasBitOrder s.now.biasSer s.now.biasQ
  debug := s.draw.debug

/-- The output pins of the block in the current cycle; in a host or a reset step see log entry 16. -/
def State.pins (s : State) : Pins := if s.sensorRst then Pins.held s else Pins.running s

end Sys2Proof.Machine
end

