-- ==== Sys2Proof/Machine/BiasInjection.lean ====
section
/-! DEFINITION. The bias injection sub-process (spec/44_frame_controller.md section 3). The trigger that starts
a burst (R116) is raised by the FrameController's operations. -/

namespace Sys2Proof.Machine

/-- BIAS.IDLE, R113: no register changes. -/
def execBiasIdle (s : State) : Result := .next s

/-- BIAS.WRITE, R114; a full `bias_q` faults (R34). -/
def execBiasWrite (s : State) : Result :=
  if wRdy s.now.biasQ s.cfg.biasQDepth then
    .next (s.sched fun r =>
      (r.setBiasQ (qPush r.biasQ s.cfg.biasWord)).setInj { r.inj with phase := true })
  else .next (s.raiseFault .biasQueueOverflow s.now.inj.cnt)

/-- BIAS.STROBE, R115. -/
def execBiasStrobe (s : State) : Result :=
  if s.now.inj.cnt + 1 = s.cfg.biasWrites then .next (s.sched (·.setInj ⟨false, false, 0⟩))
  else .next (s.sched fun r =>
    r.setInj { r.inj with phase := false, cnt := s.now.inj.cnt + 1 })

end Sys2Proof.Machine
end

