-- ==== Sys2Proof/Machine/DomainBridge.lean ====
section
/-! DEFINITION. The host side of the DomainBridge (spec/45_domain_bridge.md). -/

namespace Sys2Proof.Machine

/-- HOST.RESET_HOLD, R121: flush the bridging queue and count. -/
def execHostResetHold (s : State) : Result :=
  .next (s.sched fun r => (r.setBridgeQ []).setRstCnt (s.now.rstCnt + 1))

/-- HOST.IDLE, R122: no register changes. -/
def execHostIdle (s : State) : Result := .next s

/-- HOST.XFER, R123: the oldest byte leaves the block. On an empty queue the pop is not legal (R32; log
entry 15). -/
def execHostXfer (s : State) : Result :=
  match s.now.bridgeQ with
  | b :: _ => .next (s.sched fun r =>
      (r.setBridgeQ (qPop r.bridgeQ)).setHostStream (r.hostStream ++ [b]))
  | [] => .fault .illegalPop

end Sys2Proof.Machine
end

