-- ==== Sys2Proof/Machine/Validity.lean ====
section
/-! DEFINITION. Which configurations are valid (spec/00_scope.md R10) and the check that refuses the others
(spec/60_exceptions.md R132). -/

namespace Sys2Proof

/-- Whether a condition of R10 holds. -/
def Params.meets (p : Params) : ParamCheck → Bool
  | .cmdWords => p.cmdWords.length == Config.cmdCount && p.cmdWords.all (· < 2 ^ Config.cmdWidth)
  | .biasValue => p.biasValue < 2 ^ Config.biasWidth
  | .clkFreqHz => 1 ≤ p.clkFreqHz
  | .initCycles => 1 ≤ p.initCycles
  | .cols => 2 ≤ p.cols
  | .rows => 1 ≤ p.rows
  | .cmdToLineStart => 1 ≤ p.cmdToLineStart
  | .lineStartOffset => 1 ≤ p.lineStartOffset
  | .biasWrites => 1 ≤ p.biasWrites
  | .biasToLatchInFrameStart => p.biasToLatch + 1 ≤ p.cmdToLineStart
  | .biasToLatchInLineGap => p.biasToLatch + 1 ≤ p.lineStartOffset
  | .cmdQDepth => 1 ≤ p.cmdQDepth
  | .biasQDepth => 1 ≤ p.biasQDepth
  | .bridgeDepth => 1 ≤ p.bridgeDepth
  | .rstHold => 1 ≤ p.rstHold

/-- The conditions of R10, in its order. -/
def ParamCheck.inOrder : List ParamCheck :=
  [.cmdWords, .biasValue, .clkFreqHz, .initCycles, .cols, .rows, .cmdToLineStart, .lineStartOffset,
    .biasWrites, .biasToLatchInFrameStart, .biasToLatchInLineGap, .cmdQDepth, .biasQDepth,
    .bridgeDepth, .rstHold]

/-- The first condition of R10 that fails (R131, code 5). -/
def Params.firstFailed (p : Params) : Option ParamCheck :=
  ParamCheck.inOrder.find? (fun c => !p.meets c)

/-- A valid configuration (R10). -/
abbrev Params.Valid (p : Params) : Prop := p.firstFailed = none

end Sys2Proof
end

