-- ==== Sys2Proof/Machine/FrameController.lean ====
section
/-! DEFINITION. The FrameController's operations (spec/44_frame_controller.md sections 1 and 2). A counter
compared with a length minus one is written `counter + 1 = length`. -/

namespace Sys2Proof.Machine

/-- Schedule a write of FrameController registers. -/
def State.schedFrame (s : State) (f : Frame → Frame) : State := s.sched fun r => r.setFrame (f r.frame)

/-- The trigger of R116, in a cycle with `bias_trigger` = 1. -/
def startBurst (s : State) : State :=
  if s.now.inj.active then s.raiseFault .biasRetrigger s.now.inj.cnt
  else s.sched (·.setInj ⟨true, false, 0⟩)

/-- The bias trigger of a wait of `len` cycles, raised B cycles early (R109, R111). -/
def triggerEarly (len : Nat) (s : State) : State :=
  if s.now.frame.lineCnt + s.cfg.biasToLatch + 1 = len then startBurst s else s

/-- One counted cycle of a wait of `len` cycles before a line (R109, R111). -/
def countToLine (len : Nat) (s : State) : State :=
  if s.now.frame.lineCnt + 1 = len then
    s.schedFrame fun f => { f with state := Fc.readLine, lineCnt := 0 }
  else s.schedFrame fun f => { f with lineCnt := s.now.frame.lineCnt + 1 }

/-- FC.POWERUP, R104. -/
def execFcPowerup (s : State) : Result :=
  if s.now.ready then .next (s.schedFrame fun f => { f with state := Fc.init, initCnt := 0 })
  else .next s

/-- FC.INIT, R105. -/
def execFcInit (s : State) : Result :=
  if s.now.frame.initCnt + 1 = s.cfg.initCycles then
    .next (s.schedFrame fun f => { f with state := Fc.sendCmd, initCnt := 0 })
  else .next (s.schedFrame fun f => { f with initCnt := s.now.frame.initCnt + 1 })

/-- FC.SENDCMD, R106; a full `cmd_q` faults (R34). The configuration has no word `cmd_idx` only if it breaks
R10, which refuses it. -/
def execFcSendcmd (s : State) : Result :=
  match s.cfg.cmdWord? s.now.frame.cmdIdx with
  | some word =>
    if wRdy s.now.cmdQ s.cfg.cmdQDepth then
      .next (s.sched fun r =>
        (r.setCmdQ (qPush r.cmdQ word)).setFrame { r.frame with state := Fc.sendCmdStrobe })
    else .next (s.raiseFault .cmdQueueOverflow s.now.frame.cmdIdx)
  | none => .refused (.paramInvalid .cmdWords)

/-- FC.SENDCMD_STROBE, R107. -/
def execFcSendcmdStrobe (s : State) : Result :=
  .next (s.schedFrame fun f => { f with state := Fc.sendCmdAdvance })

/-- FC.SENDCMD_ADVANCE, R108. -/
def execFcSendcmdAdvance (s : State) : Result :=
  if s.now.frame.cmdIdx = 11 then
    .next (s.schedFrame fun f => { f with state := Fc.waitFrameStart, lineCnt := 0 })
  else .next (s.schedFrame fun f => { f with state := Fc.sendCmd, cmdIdx := s.now.frame.cmdIdx + 1 })

/-- FC.WAIT_FRAME_START, R109. -/
def execFcWaitFrameStart (s : State) : Result :=
  if s.now.cmdDone then
    .next (triggerEarly s.cfg.cmdToLineStart (countToLine s.cfg.cmdToLineStart s))
  else .next s

/-- FC.READLINE, R110; `latch_en` is `Regs.latchEn`. -/
def execFcReadline (s : State) : Result :=
  if s.now.frame.lineCnt + 1 = s.cfg.lineCycles then
    if s.now.frame.rowCnt + 1 = s.cfg.rows then
      .next (s.schedFrame fun f =>
        { f with lineCnt := 0, rowCnt := 0, cmdIdx := 0, state := Fc.interFrame })
    else .next (s.schedFrame fun f =>
      { f with lineCnt := 0, rowCnt := s.now.frame.rowCnt + 1, state := Fc.waitLine })
  else .next (s.schedFrame fun f => { f with lineCnt := s.now.frame.lineCnt + 1 })

/-- FC.WAITLINE, R111. -/
def execFcWaitline (s : State) : Result :=
  .next (triggerEarly s.cfg.lineStartOffset (countToLine s.cfg.lineStartOffset s))

/-- FC.INTERFRAME, R112. -/
def execFcInterframe (s : State) : Result :=
  if s.now.frame.lineCnt + 1 = s.cfg.interFrameCycles then
    .next (s.schedFrame fun f => { f with state := Fc.init, lineCnt := 0, initCnt := 0 })
  else .next (s.schedFrame fun f => { f with lineCnt := s.now.frame.lineCnt + 1 })

end Sys2Proof.Machine
end

