-- ==== Sys2Proof/Machine/PowerSequencer.lean ====
section
/-! DEFINITION. The PowerSequencer's operations (spec/41_power_sequencer.md). -/

namespace Sys2Proof.Machine

/-- A timed power state of `d` cycles (R70): left at the end of the cycle in which `ps_cnt >= d - 1`. -/
def timedPowerState (d : Nat) (next : PowerState) (s : State) : State :=
  if d ≤ s.now.power.cnt + 1 then s.sched (·.setPower ⟨next, 0⟩)
  else s.sched fun r => r.setPower { r.power with cnt := s.now.power.cnt + 1 }

/-- PS.INIT, R74. -/
def execPsInit (s : State) : Result := .next (timedPowerState s.cfg.dInit .rail3v3 s)

/-- PS.RAIL3V3, R75. -/
def execPsRail3v3 (s : State) : Result := .next (timedPowerState s.cfg.d3v3 .rail2v5 s)

/-- PS.RAIL2V5, R76. -/
def execPsRail2v5 (s : State) : Result := .next (timedPowerState s.cfg.d2v5 .boostEnabled s)

/-- PS.BOOST, R77: no register changes. -/
def execPsBoost (s : State) : Result := .next s

end Sys2Proof.Machine
end

