-- ==== Sys2Proof/Machine/SampleDeserializer.lean ====
section
/-! DEFINITION. The SampleDeserializer's capture and emit operations (spec/43_sample_deserializer.md). -/

namespace Sys2Proof.Machine

/-- DES.CLR, R89: the partial accumulation is discarded (R128). -/
def execDesClr (s : State) : Result :=
  .next (s.sched fun r => r.setDes { r.des with accE := 0, accO := 0, dcnt := 0 })

/-- DES.ACC, R90. -/
def execDesAcc (s : State) : Result :=
  .next (s.sched fun r => r.setDes { r.des with
    accE := accumulate s.now.des.accE s.draw.laneE
    accO := accumulate s.now.des.accO s.draw.laneO
    dcnt := s.now.des.dcnt + 1 })

/-- The overrun count of R92. -/
def countOverrun (s : State) (r : Regs) : Regs :=
  if s.overruns then r.setOverrunCount (s.now.overrunCount + 1) else r

/-- DES.CAP, R91, with the overrun of R92. -/
def execDesCap (s : State) : Result :=
  .next (s.sched fun r => countOverrun s (r.setDes { r.des with
    outE := rev14 (accumulate s.now.des.accE s.draw.laneE)
    outO := rev14 (accumulate s.now.des.accO s.draw.laneO)
    accE := 0
    accO := 0
    dcnt := 0
    haveData := true }))

/-- EMIT.IDLE, R93: no register changes. -/
def execEmitIdle (s : State) : Result := .next s

/-- EMIT.STALL, R94: no register changes. -/
def execEmitStall (s : State) : Result := .next s

/-- Push a byte into the bridging queue. Without space the push is not legal (R31; log entry 15); the
selector chooses an emission only with `bw_rdy`, which implies space (R48). -/
def pushBridge (s : State) (b : Byte) (f : Deserializer → Deserializer) : Result :=
  if wRdy s.now.bridgeQ s.cfg.bridgeDepth then
    .next (s.sched fun r => (r.setBridgeQ (qPush r.bridgeQ b)).setDes (f r.des))
  else .fault .illegalPush

/-- EMIT.EVEN_LO, R95. -/
def execEmitEvenLo (s : State) : Result :=
  pushBridge s (lowByte s.now.des.outE) fun d => { d with emitSt := .evenHigh }

/-- EMIT.EVEN_HI, R96. -/
def execEmitEvenHi (s : State) : Result :=
  pushBridge s (highByte s.now.des.outE) fun d => { d with emitSt := .oddLow }

/-- EMIT.ODD_LO, R97. -/
def execEmitOddLo (s : State) : Result :=
  pushBridge s (lowByte s.now.des.outO) fun d => { d with emitSt := .oddHigh }

/-- EMIT.ODD_HI, R98: `have_data` is cleared unless DES.CAP sets it in this cycle (R91). -/
def execEmitOddHi (s : State) : Result :=
  pushBridge s (highByte s.now.des.outO) fun d =>
    { d with emitSt := .evenLow, haveData := if s.now.captures then d.haveData else false }

end Sys2Proof.Machine
end

