-- ==== Sys2Proof/Syntax.lean ====
section
/-! DEFINITION. The operations of the block, one constructor for each row of spec/opcode_table.json, and the
selector words they are decoded from (spec/30_encoding.md R62 to R64). -/

namespace Sys2Proof

/-- The two instances of the SerialOutputEngine (spec/42_serial_output.md R79). -/
inductive SerInst where
  | cmd
  | bias
  deriving DecidableEq, Repr, Inhabited

/-- What one unit does in one cycle (spec/00_scope.md R2), in the order of spec/30_encoding.md R64. -/
inductive Instr where
  /-- SENSOR.HELD, R147. -/
  | sensorHeld
  /-- PS.INIT, R74. -/
  | psInit
  /-- PS.RAIL3V3, R75. -/
  | psRail3v3
  /-- PS.RAIL2V5, R76. -/
  | psRail2v5
  /-- PS.BOOST, R77. -/
  | psBoost
  /-- SER.IDLE of an instance, R81. -/
  | serIdle (x : SerInst)
  /-- SER.LOAD of an instance, R82. -/
  | serLoad (x : SerInst)
  /-- SER.SHIFT of an instance, R83. -/
  | serShift (x : SerInst)
  /-- SER.LAST of an instance, R84. -/
  | serLast (x : SerInst)
  /-- DES.CLR, R89. -/
  | desClr
  /-- DES.ACC, R90. -/
  | desAcc
  /-- DES.CAP, R91. -/
  | desCap
  /-- EMIT.IDLE, R93. -/
  | emitIdle
  /-- EMIT.STALL, R94. -/
  | emitStall
  /-- EMIT.EVEN_LO, R95. -/
  | emitEvenLo
  /-- EMIT.EVEN_HI, R96. -/
  | emitEvenHi
  /-- EMIT.ODD_LO, R97. -/
  | emitOddLo
  /-- EMIT.ODD_HI, R98. -/
  | emitOddHi
  /-- FC.POWERUP, R104. -/
  | fcPowerup
  /-- FC.INIT, R105. -/
  | fcInit
  /-- FC.SENDCMD, R106. -/
  | fcSendcmd
  /-- FC.SENDCMD_STROBE, R107. -/
  | fcSendcmdStrobe
  /-- FC.SENDCMD_ADVANCE, R108. -/
  | fcSendcmdAdvance
  /-- FC.WAIT_FRAME_START, R109. -/
  | fcWaitFrameStart
  /-- FC.READLINE, R110. -/
  | fcReadline
  /-- FC.WAITLINE, R111. -/
  | fcWaitline
  /-- FC.INTERFRAME, R112. -/
  | fcInterframe
  /-- BIAS.IDLE, R113. -/
  | biasIdle
  /-- BIAS.WRITE, R114. -/
  | biasWrite
  /-- BIAS.STROBE, R115. -/
  | biasStrobe
  /-- HOST.RESET_HOLD, R121. -/
  | hostResetHold
  /-- HOST.IDLE, R122. -/
  | hostIdle
  /-- HOST.XFER, R123. -/
  | hostXfer
  /-- SYS.RESET, R145. -/
  | sysReset
  deriving DecidableEq, Repr, Inhabited

/-- The selector formats of R63. `sel_ser` exists once for each serializer instance. -/
inductive Format where
  | selFc
  | selSensor
  | selPs
  | selSer (x : SerInst)
  | selDes
  | selEmit
  | selBias
  | selHost
  | event
  deriving DecidableEq, Repr, Inhabited

/-- A selector value together with its format: what this block has in the place of an instruction word. -/
structure SelWord where
  format : Format
  sel : Byte
  deriving DecidableEq, Repr, Inhabited

end Sys2Proof
end

