-- ==== Sys2Proof/Machine/SerialOutput.lean ====
section
/-! DEFINITION. The SerialOutputEngine's operations, for both instances (spec/42_serial_output.md R79). The
output line of each cycle is `serOut` of Machine/Flags.lean (R80). -/

namespace Sys2Proof.Machine

/-- The registers after loading a word: its first bit leaves in the load cycle (R82). -/
def serLoaded {w : Nat} (o : BitOrder) (word : BitVec w) : Serializer w := ⟨shift o word, true, 1⟩

/-- SER.SHIFT's writes into the scheduled registers `x`, from the registers `cur` of the cycle (R83). -/
def serShifted {w : Nat} (o : BitOrder) (cur x : Serializer w) : Serializer w :=
  { x with sr := shift o cur.sr, bitcnt := cur.bitcnt + 1 }

/-- SER.LAST's registers (R84). -/
def serFinished {w : Nat} (o : BitOrder) (cur : Serializer w) : Serializer w := ⟨shift o cur.sr, false, 0⟩

/-- SER.IDLE, R81: no register changes. -/
def execSerIdle (x : SerInst) (s : State) : Result :=
  match x with
  | .cmd => .next s
  | .bias => .next s

/-- SER.LOAD, R82. On an empty queue the pop is not legal (R32; log entry 15). -/
def execSerLoad (x : SerInst) (s : State) : Result :=
  match x with
  | .cmd =>
    match s.now.cmdQ with
    | word :: _ => .next (s.sched fun r =>
        (r.setCmdQ (qPop r.cmdQ)).setCmdSer (serLoaded s.cfg.cmdBitOrder word))
    | [] => .fault .illegalPop
  | .bias =>
    match s.now.biasQ with
    | word :: _ => .next (s.sched fun r =>
        (r.setBiasQ (qPop r.biasQ)).setBiasSer (serLoaded s.cfg.biasBitOrder word))
    | [] => .fault .illegalPop

/-- SER.SHIFT, R83. -/
def execSerShift (x : SerInst) (s : State) : Result :=
  match x with
  | .cmd => .next (s.sched fun r =>
      r.setCmdSer (serShifted s.cfg.cmdBitOrder s.now.cmdSer r.cmdSer))
  | .bias => .next (s.sched fun r =>
      r.setBiasSer (serShifted s.cfg.biasBitOrder s.now.biasSer r.biasSer))

/-- SER.LAST, R84. -/
def execSerLast (x : SerInst) (s : State) : Result :=
  match x with
  | .cmd => .next (s.sched (·.setCmdSer (serFinished s.cfg.cmdBitOrder s.now.cmdSer)))
  | .bias => .next (s.sched (·.setBiasSer (serFinished s.cfg.biasBitOrder s.now.biasSer)))

end Sys2Proof.Machine
end

