-- ==== Sys2Proof/Machine/System.lean ====
section
/-! DEFINITION. Reset (spec/70_reset_and_hazards.md R145, R147). -/

namespace Sys2Proof.Machine

/-- Every sensor-domain register at its reset value; the queues and the model fields as they are (R147). -/
def Regs.heldInReset (r : Regs) : Regs :=
  { r with
    power := Power.reset
    frame := Frame.reset
    inj := Injector.reset
    cmdSer := Serializer.reset 14
    biasSer := Serializer.reset 7
    des := Deserializer.reset }

/-- SENSOR.HELD, R147. -/
def execSensorHeld (s : State) : Result := .next (s.sched Regs.heldInReset)

/-- SYS.RESET, R145: everything at its reset value but the bytes already in the host stream. -/
def execSysReset (s : State) : Result :=
  .next (s.sched fun r => Regs.reset.setHostStream r.hostStream)

end Sys2Proof.Machine
end

