-- ==== Sys2Proof/Machine/Dispatch.lean ====
section
/-! DEFINITION. One arm per operation, in the order of spec/30_encoding.md R64. -/

namespace Sys2Proof.Machine

def exec (i : Instr) (s : State) : Host.Outcome State Fault Refusal :=
  match i with
  | .sensorHeld => Sys2Proof.Machine.execSensorHeld s
  | .psInit => Sys2Proof.Machine.execPsInit s
  | .psRail3v3 => Sys2Proof.Machine.execPsRail3v3 s
  | .psRail2v5 => Sys2Proof.Machine.execPsRail2v5 s
  | .psBoost => Sys2Proof.Machine.execPsBoost s
  | .serIdle x => Sys2Proof.Machine.execSerIdle x s
  | .serLoad x => Sys2Proof.Machine.execSerLoad x s
  | .serShift x => Sys2Proof.Machine.execSerShift x s
  | .serLast x => Sys2Proof.Machine.execSerLast x s
  | .desClr => Sys2Proof.Machine.execDesClr s
  | .desAcc => Sys2Proof.Machine.execDesAcc s
  | .desCap => Sys2Proof.Machine.execDesCap s
  | .emitIdle => Sys2Proof.Machine.execEmitIdle s
  | .emitStall => Sys2Proof.Machine.execEmitStall s
  | .emitEvenLo => Sys2Proof.Machine.execEmitEvenLo s
  | .emitEvenHi => Sys2Proof.Machine.execEmitEvenHi s
  | .emitOddLo => Sys2Proof.Machine.execEmitOddLo s
  | .emitOddHi => Sys2Proof.Machine.execEmitOddHi s
  | .fcPowerup => Sys2Proof.Machine.execFcPowerup s
  | .fcInit => Sys2Proof.Machine.execFcInit s
  | .fcSendcmd => Sys2Proof.Machine.execFcSendcmd s
  | .fcSendcmdStrobe => Sys2Proof.Machine.execFcSendcmdStrobe s
  | .fcSendcmdAdvance => Sys2Proof.Machine.execFcSendcmdAdvance s
  | .fcWaitFrameStart => Sys2Proof.Machine.execFcWaitFrameStart s
  | .fcReadline => Sys2Proof.Machine.execFcReadline s
  | .fcWaitline => Sys2Proof.Machine.execFcWaitline s
  | .fcInterframe => Sys2Proof.Machine.execFcInterframe s
  | .biasIdle => Sys2Proof.Machine.execBiasIdle s
  | .biasWrite => Sys2Proof.Machine.execBiasWrite s
  | .biasStrobe => Sys2Proof.Machine.execBiasStrobe s
  | .hostResetHold => Sys2Proof.Machine.execHostResetHold s
  | .hostIdle => Sys2Proof.Machine.execHostIdle s
  | .hostXfer => Sys2Proof.Machine.execHostXfer s
  | .sysReset => Sys2Proof.Machine.execSysReset s

end Sys2Proof.Machine
end

