-- ==== Sys2Proof/WellFormed.lean ====
section
/-! DEFINITION. Which syntax is well formed: a selector value fits its format's width
(spec/30_encoding.md R63). An operation's only operand is the serializer instance, whose two values are both
legal, so every `Instr` is well formed. The validity of a configuration is in Machine/Validity.lean. -/

namespace Sys2Proof

/-- The width of a selector format in bits (R63). -/
def Format.width : Format → Nat
  | .selSensor => 1
  | .selPs => 2
  | .selSer _ => 3
  | .selDes => 2
  | .selEmit => 4
  | .selFc => 4
  | .selBias => 2
  | .selHost => 2
  | .event => 1

/-- No bit stands above the format's width. -/
abbrev SelWord.WellFormed (w : SelWord) : Prop := w.sel.toNat < 2 ^ w.format.width

/-- An operation is well formed when its serializer instance is one of R79's two, which the type says. -/
abbrev Instr.WellFormed (i : Instr) : Prop :=
  match i with
  | .serIdle x | .serLoad x | .serShift x | .serLast x => x = .cmd ∨ x = .bias
  | .sensorHeld | .psInit | .psRail3v3 | .psRail2v5 | .psBoost
  | .desClr | .desAcc | .desCap
  | .emitIdle | .emitStall | .emitEvenLo | .emitEvenHi | .emitOddLo | .emitOddHi
  | .fcPowerup | .fcInit | .fcSendcmd | .fcSendcmdStrobe | .fcSendcmdAdvance
  | .fcWaitFrameStart | .fcReadline | .fcWaitline | .fcInterframe
  | .biasIdle | .biasWrite | .biasStrobe
  | .hostResetHold | .hostIdle | .hostXfer | .sysReset => True

end Sys2Proof
end

