-- ==== Sys2Proof/Decode.lean ====
section
/-! DEFINITION. Decoding of selector words by the match and mask of spec/30_encoding.md R64, total on any
bytes and rejecting by name, and the encoder after it.

A selector word is laid out as two bytes: the selector value, then a format tag. The tag is the model's own
(R63 gives the formats, no hardware word holds both; log entry 6): without it the same bits name an operation
of several units. -/

namespace Sys2Proof

/-- Why bytes name no operation. -/
inductive Reject where
  /-- Fewer than two bytes. -/
  | truncated
  /-- A tag that names no format of R63. -/
  | unknownFormat
  /-- A bit above the format's width is set. -/
  | bitsAboveSelector
  /-- `sel_fc` 9 .. 15: the value names no state (R66). -/
  | reservedFcState
  /-- `sel_sensor` = 0 or `event` = 0: the selector selects no operation of its own format. -/
  | noOperation
  deriving DecidableEq, Repr, Inhabited

/-- The mask, and the value the masked selector must have: one row of R64. -/
structure Pattern where
  mask : Byte
  value : Byte
  deriving DecidableEq, Repr, Inhabited

/-- The selector format of an operation (R64, column format). -/
def Instr.format : Instr → Format
  | .sensorHeld => .selSensor
  | .psInit | .psRail3v3 | .psRail2v5 | .psBoost => .selPs
  | .serIdle x | .serLoad x | .serShift x | .serLast x => .selSer x
  | .desClr | .desAcc | .desCap => .selDes
  | .emitIdle | .emitStall | .emitEvenLo | .emitEvenHi | .emitOddLo | .emitOddHi => .selEmit
  | .fcPowerup | .fcInit | .fcSendcmd | .fcSendcmdStrobe | .fcSendcmdAdvance
  | .fcWaitFrameStart | .fcReadline | .fcWaitline | .fcInterframe => .selFc
  | .biasIdle | .biasWrite | .biasStrobe => .selBias
  | .hostResetHold | .hostIdle | .hostXfer => .selHost
  | .sysReset => .event

/-- The match and mask of an operation (R64, columns match and mask). -/
def Instr.pattern : Instr → Pattern
  | .sensorHeld => ⟨0b1, 0b1⟩
  | .psInit => ⟨0b11, 0b00⟩
  | .psRail3v3 => ⟨0b11, 0b01⟩
  | .psRail2v5 => ⟨0b11, 0b10⟩
  | .psBoost => ⟨0b11, 0b11⟩
  | .serIdle _ => ⟨0b110, 0b000⟩
  | .serLoad _ => ⟨0b110, 0b010⟩
  | .serShift _ => ⟨0b101, 0b100⟩
  | .serLast _ => ⟨0b101, 0b101⟩
  | .desClr => ⟨0b10, 0b00⟩
  | .desAcc => ⟨0b11, 0b10⟩
  | .desCap => ⟨0b11, 0b11⟩
  | .emitIdle => ⟨0b1000, 0b0000⟩
  | .emitStall => ⟨0b1100, 0b1000⟩
  | .emitEvenLo => ⟨0b1111, 0b1100⟩
  | .emitEvenHi => ⟨0b1111, 0b1101⟩
  | .emitOddLo => ⟨0b1111, 0b1110⟩
  | .emitOddHi => ⟨0b1111, 0b1111⟩
  | .fcPowerup => ⟨0b1111, 0b0000⟩
  | .fcInit => ⟨0b1111, 0b0001⟩
  | .fcSendcmd => ⟨0b1111, 0b0010⟩
  | .fcSendcmdStrobe => ⟨0b1111, 0b0011⟩
  | .fcSendcmdAdvance => ⟨0b1111, 0b0100⟩
  | .fcWaitFrameStart => ⟨0b1111, 0b0101⟩
  | .fcReadline => ⟨0b1111, 0b0110⟩
  | .fcWaitline => ⟨0b1111, 0b0111⟩
  | .fcInterframe => ⟨0b1111, 0b1000⟩
  | .biasIdle => ⟨0b10, 0b00⟩
  | .biasWrite => ⟨0b11, 0b10⟩
  | .biasStrobe => ⟨0b11, 0b11⟩
  | .hostResetHold => ⟨0b10, 0b10⟩
  | .hostIdle => ⟨0b11, 0b00⟩
  | .hostXfer => ⟨0b11, 0b01⟩
  | .sysReset => ⟨0b1, 0b1⟩

/-- The operations of a format, in the table's order. -/
def Format.operations : Format → List Instr
  | .selSensor => [.sensorHeld]
  | .selPs => [.psInit, .psRail3v3, .psRail2v5, .psBoost]
  | .selSer x => [.serIdle x, .serLoad x, .serShift x, .serLast x]
  | .selDes => [.desClr, .desAcc, .desCap]
  | .selEmit => [.emitIdle, .emitStall, .emitEvenLo, .emitEvenHi, .emitOddLo, .emitOddHi]
  | .selFc => [.fcPowerup, .fcInit, .fcSendcmd, .fcSendcmdStrobe, .fcSendcmdAdvance,
      .fcWaitFrameStart, .fcReadline, .fcWaitline, .fcInterframe]
  | .selBias => [.biasIdle, .biasWrite, .biasStrobe]
  | .selHost => [.hostResetHold, .hostIdle, .hostXfer]
  | .event => [.sysReset]

/-- An operation applies when `(selector AND mask) = match` (R64). -/
def Instr.applies (i : Instr) (sel : Byte) : Bool := sel &&& i.pattern.mask == i.pattern.value

/-- Why a selector value that no row of its format matches names no operation (R66). -/
def Format.unmatched : Format → Reject
  | .selFc => .reservedFcState
  | .selSensor | .selPs | .selSer _ | .selDes | .selEmit | .selBias | .selHost | .event => .noOperation

/-- The operation a selector word names. -/
def decodeSel (w : SelWord) : Except Reject Instr :=
  if w.WellFormed then
    match w.format.operations.find? (fun i => i.applies w.sel) with
    | some i => .ok i
    | none => .error w.format.unmatched
  else .error .bitsAboveSelector

/-- The format tag. DESIGN CHOICE (log entry 6). -/
def Format.tag : Format → Byte
  | .selFc => 0
  | .selSensor => 1
  | .selPs => 2
  | .selSer .cmd => 3
  | .selSer .bias => 4
  | .selDes => 5
  | .selEmit => 6
  | .selBias => 7
  | .selHost => 8
  | .event => 9

/-- The format a tag names, if any. -/
def Format.ofTag (t : Byte) : Option Format :=
  [Format.selFc, .selSensor, .selPs, .selSer .cmd, .selSer .bias, .selDes, .selEmit,
    .selBias, .selHost, .event].find? (fun f => f.tag == t)

/-- Decoding of bytes: the operation and the bytes after it, or the reason there is none. -/
def decode : List Byte → Except Reject (Instr × List Byte)
  | sel :: tag :: rest =>
    match Format.ofTag tag with
    | none => .error .unknownFormat
    | some f =>
      match decodeSel ⟨f, sel⟩ with
      | .ok i => .ok (i, rest)
      | .error e => .error e
  | [_] => .error .truncated
  | [] => .error .truncated

/-- The bytes of a selector word: selector value, then tag. -/
def SelWord.bytes (w : SelWord) : List Byte := [w.sel, w.format.tag]

/-- The bits of a selector that an operation's mask leaves out are 0. -/
def Instr.selWord (i : Instr) : SelWord := ⟨i.format, i.pattern.value⟩

/-- The bytes of an operation. -/
def encode (i : Instr) : List Byte := i.selWord.bytes

/-- The operation in an instruction of the opcode table whose bits are `w`: the low byte is the selector,
the next byte the tag, so a bare selector value of at most 8 bits is read in the format `sel_fc`
(log entry 6). -/
def decodeTableWord (nbits w : Nat) : Option Instr :=
  match decode [BitVec.ofNat 8 (w % 2 ^ nbits), BitVec.ofNat 8 (w % 2 ^ nbits / 256)] with
  | .ok (i, _) => some i
  | .error _ => none

end Sys2Proof
end

