-- ==== Sys2Proof/Machine/Fetch.lean ====
section
/-! DEFINITION. Fetching: the selector words of a cycle, assembled from the state and the inputs
(spec/30_encoding.md R63), and its inverse, a state whose next step performs a given selector word. -/

namespace Sys2Proof.Machine

/-- Bits, the most significant first, as a selector value. -/
def packBits (bs : List Bool) : Byte :=
  BitVec.ofNat 8 (bs.foldl (fun n b => 2 * n + b.toNat) 0)

/-- `sel_sensor` (R63). -/
def selSensor (s : State) : SelWord := ⟨.selSensor, packBits [s.sensorRst]⟩

/-- `sel_ps` (R63). -/
def selPs (s : State) : SelWord := ⟨.selPs, s.now.power.state.code.setWidth 8⟩

/-- `sel_ser` of a serializer of width `w` (R63). -/
def selSer {w : Nat} (x : SerInst) (r : Serializer w) (q : List (BitVec w)) : SelWord :=
  ⟨.selSer x, packBits [r.haveWord, rRdy q, r.bitcnt + 1 == w]⟩

/-- `sel_des` (R63). -/
def selDes (s : State) : SelWord := ⟨.selDes, packBits [s.now.latchEn, s.now.des.dcnt == 13]⟩

/-- `sel_emit` (R63). -/
def selEmit (s : State) : SelWord :=
  ⟨.selEmit, packBits [s.now.des.haveData, s.bwRdy,
    s.now.des.emitSt.code.getLsbD 1, s.now.des.emitSt.code.getLsbD 0]⟩

/-- `sel_fc` (R63). -/
def selFc (s : State) : SelWord := ⟨.selFc, s.now.frame.state.setWidth 8⟩

/-- `sel_bias` (R63). -/
def selBias (s : State) : SelWord := ⟨.selBias, packBits [s.now.inj.active, s.now.inj.phase]⟩

/-- `sel_host` (R63). -/
def selHost (s : State) : SelWord := ⟨.selHost, packBits [s.sensorRst, s.hostTakes]⟩

/-- `event` (R63). -/
def selEvent (s : State) : SelWord := ⟨.event, packBits [s.draw.turn == .reset]⟩

/-- The selector words of a sensor cycle: the one of SENSOR.HELD, or one of each of the seven units (R62). -/
def fetchSensor (s : State) : List SelWord :=
  if s.sensorRst then [selSensor s]
  else [selPs s, selSer .cmd s.now.cmdSer s.now.cmdQ, selSer .bias s.now.biasSer s.now.biasQ,
    selDes s, selEmit s, selFc s, selBias s]

/-- The selector words of the next step (R62, R145). -/
def State.fetch (s : State) : List SelWord :=
  match s.draw.turn with
  | .sensor => fetchSensor s
  | .host => [selHost s]
  | .reset => [selEvent s]

/-- An input with nothing on its lines. -/
def quietDraw (t : Turn) : Draw := ⟨t, false, false, false, false, false, 0⟩

/-- Replace the registers at a boundary between steps. -/
def State.setRegs (s : State) (r : Regs) : State := { s with now := r, nxt := r }

/-- Put an input before the script. -/
def State.withInput (s : State) (d : Draw) : State := { s with script := d :: s.script }

/-- A serializer and its queue whose `sel_ser` is the given bits. -/
def placeSer {w : Nat} (sel : Byte) (x : Serializer w) (q : List (BitVec w)) :
    Serializer w × List (BitVec w) :=
  ({ x with
      haveWord := sel.getLsbD 2
      bitcnt := if sel.getLsbD 0 then w - 1 else if x.bitcnt + 1 = w then 0 else x.bitcnt },
    if sel.getLsbD 1 then (if q.isEmpty then [0] else q) else [])

/-- The `ps_state` a selector's bits 1:0 name (R59). -/
def powerStateOf (sel : Byte) : PowerState :=
  match sel.getLsbD 1, sel.getLsbD 0 with
  | false, false => .init
  | false, true => .rail3v3
  | true, false => .rail2v5
  | true, true => .boostEnabled

/-- The `emit_st` a selector's bits 1:0 name (R61). -/
def emitStateOf (sel : Byte) : EmitState :=
  match sel.getLsbD 1, sel.getLsbD 0 with
  | false, false => .evenLow
  | false, true => .evenHigh
  | true, false => .oddLow
  | true, true => .oddHigh

/-- The registers whose selector of the word's format is the word's value; everything else as in `r`. -/
def Regs.place (r : Regs) (w : SelWord) : Regs :=
  match w.format with
  | .selSensor | .event => r
  | .selPs => r.setPower { r.power with state := powerStateOf w.sel }
  | .selSer .cmd =>
    let p := placeSer w.sel r.cmdSer r.cmdQ
    (r.setCmdSer p.1).setCmdQ p.2
  | .selSer .bias =>
    let p := placeSer w.sel r.biasSer r.biasQ
    (r.setBiasSer p.1).setBiasQ p.2
  | .selDes =>
    let st := if w.sel.getLsbD 1 then Fc.readLine
      else if r.frame.state = Fc.readLine then Fc.powerup else r.frame.state
    let n := if w.sel.getLsbD 0 then 13 else if r.des.dcnt = 13 then 0 else r.des.dcnt
    (r.setFrame { r.frame with state := st }).setDes { r.des with dcnt := n }
  | .selEmit =>
    (r.setDes { r.des with haveData := w.sel.getLsbD 3, emitSt := emitStateOf w.sel }).setBridgeQ
      (if w.sel.getLsbD 2 then [] else r.bridgeQ)
  | .selFc => r.setFrame { r.frame with state := w.sel.setWidth 4 }
  | .selBias => r.setInj { r.inj with active := w.sel.getLsbD 1, phase := w.sel.getLsbD 0 }
  | .selHost => if w.sel.getLsbD 0 ∧ r.bridgeQ.isEmpty then r.setBridgeQ [0] else r

/-- Whether the word belongs to a cycle with `sensor_rst` = 1. -/
def wordInHold (w : SelWord) : Bool :=
  match w.format with
  | .selSensor => w.sel.getLsbD 0
  | .selHost => w.sel.getLsbD 1
  | .selPs | .selSer _ | .selDes | .selEmit | .selFc | .selBias | .event => false

/-- The input under which the word is fetched. -/
def wordInput (w : SelWord) : Draw :=
  match w.format with
  | .selHost => { quietDraw .host with brSees := w.sel.getLsbD 0, hostReady := w.sel.getLsbD 0 }
  | .event => quietDraw (if w.sel.getLsbD 0 then .reset else .sensor)
  | .selEmit => { quietDraw .sensor with bwSees := w.sel.getLsbD 2 }
  | .selSensor | .selPs | .selSer _ | .selDes | .selFc | .selBias => quietDraw .sensor

/-- `s` with a selector word placed where the next step fetches it: the unit's registers, the reset hold over
(or on, for the words of the hold), no fault recorded, and the input of the step (log entry 7). -/
def State.placeWord (s : State) (w : SelWord) : State :=
  (s.setRegs (((s.now.place w).setRstCnt (if wordInHold w then 0 else s.cfg.rstHold)).setFault none)).withInput
    (wordInput w)

/-- The bytes of a selector word placed where the next step fetches them; bytes with no format tag of R63 are
in no place this machine fetches from, and leave the state as it is. -/
def State.placeBytes (s : State) (sel tag : Byte) : State :=
  match Format.ofTag tag with
  | some f => s.placeWord ⟨f, sel⟩
  | none => s

end Sys2Proof.Machine
end

