-- ==== Sys2Proof/Machine/Cycle.lean ====
section
/-! DEFINITION. One clock cycle of an agent (spec/00_scope.md R6, R13): fetch the selector words, perform the
operations they name, all reading the start-of-cycle values, and let the writes take effect together. -/

namespace Sys2Proof.Machine

/-- Decode a selector word and perform its operation. A reserved `fc_state` raises ILLEGAL_STATE (R66, R131). -/
def runWord (w : SelWord) (s : State) : Result :=
  match decode w.bytes with
  | .ok (i, _) => exec i s
  | .error .reservedFcState => .next (s.raiseFault .illegalState s.now.frame.state.toNat)
  | .error .truncated => .fault .badSelector
  | .error .unknownFormat => .fault .badSelector
  | .error .bitsAboveSelector => .fault .badSelector
  | .error .noOperation => .fault .badSelector

/-- Perform the operations of a cycle. They read only `now` and the inputs, so their order does not matter
(R13). -/
def runWords : List SelWord → State → Result
  | [], s => .next s
  | w :: ws, s => andThen (runWord w s) (runWords ws)

/-- The sensor cycle number advances in a cycle out of reset, and only there (R147). -/
def State.countCycle (s : State) : State :=
  if s.draw.turn = .sensor ∧ ¬ s.sensorRst then s.sched (·.setCycle (s.now.cycle + 1)) else s

/-- One cycle of the agent whose turn it is, or the system reset. -/
def cycle (s : State) : Result :=
  andThen (runWords s.fetch s.startCycle) fun t => .next t.countCycle.commit.nextDraw

/-- After a fault no agent takes a step; the system reset still does (R133). -/
def cycleUnlessEnded (s : State) : Result :=
  match s.now.fault, s.draw.turn with
  | none, _ => cycle s
  | some _, .reset => cycle s
  | some f, .sensor => .fault (.runEnded f.code)
  | some f, .host => .fault (.runEnded f.code)

end Sys2Proof.Machine
end

