-- ==== Sys2Proof/Machine/Step.lean ====
section
/-! DEFINITION. One step of the machine: one clock cycle of one agent, or the system reset, under a valid
configuration (spec/60_exceptions.md R132). -/

namespace Sys2Proof.Machine

/-- The step relation of the block, with every configuration constant a parameter of it and none in its state
(R25). A configuration that breaks R10 has no run (R132). -/
def stepUnder (cfg : Params) (b : Block) : Host.Outcome Block Fault Refusal :=
  match cfg.firstFailed with
  | some c => .refused (.paramInvalid c)
  | none => mapNext State.toBlock (cycleUnlessEnded (b.under cfg))

/-- One step in the host's form: the step relation of the configuration the block is under. -/
def step (s : State) : Host.Outcome State Fault Refusal :=
  mapNext (·.under s.cfg) (stepUnder s.cfg s.toBlock)

/-- `s` with the opcode-table word `w` placed so that the next step performs its operation (log entry 7). -/
def State.withFetchWord (s : State) (nbits w : Nat) : State :=
  s.placeBytes (BitVec.ofNat 8 (w % 2 ^ nbits)) (BitVec.ofNat 8 (w % 2 ^ nbits / 256))

end Sys2Proof.Machine
end

