-- ==== Sys2Proof/Safety.lean ====
section
/-! DEFINITION. The terms claims are stated in: runs, the invariant of the registers, the schedules that make
a configuration free of faults, fairness, and the next-state function of a sensor cycle written register by
register (a second description of the block, beside the operation-by-operation one of Machine/). -/

namespace Sys2Proof

/-- P, the first sensor cycle with `ready` = 1 (R78). -/
def Params.readyCycle (p : Params) : Nat := p.dInit + p.d3v3 + p.d2v5

/-- T, the period of a frame in sensor cycles (R118). -/
def Params.framePeriod (p : Params) : Nat :=
  p.initCycles + 169 + p.cmdToLineStart + (p.rows + 1) * p.lineCycles + p.rows * p.lineStartOffset

/-- The first cycle of line `k`, counted from the start of its frame's Init (R118). -/
def Params.lineStart (p : Params) (k : Nat) : Nat :=
  p.initCycles + 169 + p.cmdToLineStart + k * (p.lineCycles + p.lineStartOffset)

namespace Machine

/-! ### The operation each unit performs, by its state (R64 read row by row) -/

/-- The PowerSequencer's operation (R64, `sel_ps`). -/
def powerOp : PowerState → Instr
  | .init => .psInit
  | .rail3v3 => .psRail3v3
  | .rail2v5 => .psRail2v5
  | .boostEnabled => .psBoost

/-- A serializer's operation (R64, `sel_ser`). -/
def serOp (x : SerInst) (haveWord ready last : Bool) : Instr :=
  match haveWord, ready, last with
  | false, false, _ => .serIdle x
  | false, true, _ => .serLoad x
  | true, _, false => .serShift x
  | true, _, true => .serLast x

/-- The capture operation (R64, `sel_des`). -/
def captureOp (latch full : Bool) : Instr :=
  match latch, full with
  | false, _ => .desClr
  | true, false => .desAcc
  | true, true => .desCap

/-- The emit operation (R64, `sel_emit`). -/
def emitOp (haveData bwRdy : Bool) (st : EmitState) : Instr :=
  match haveData, bwRdy, st with
  | false, _, _ => .emitIdle
  | true, false, _ => .emitStall
  | true, true, .evenLow => .emitEvenLo
  | true, true, .evenHigh => .emitEvenHi
  | true, true, .oddLow => .emitOddLo
  | true, true, .oddHigh => .emitOddHi

/-- The FrameController's operation, if `fc_state` names a state (R64, `sel_fc`; R66). -/
def frameOp (st : BitVec 4) : Option Instr :=
  [Instr.fcPowerup, .fcInit, .fcSendcmd, .fcSendcmdStrobe, .fcSendcmdAdvance, .fcWaitFrameStart,
    .fcReadline, .fcWaitline, .fcInterframe][st.toNat]?

/-- The bias injection's operation (R64, `sel_bias`). -/
def biasOp (active phase : Bool) : Instr :=
  match active, phase with
  | false, _ => .biasIdle
  | true, false => .biasWrite
  | true, true => .biasStrobe

/-- The host agent's operation (R64, `sel_host`). -/
def hostOp (hold takes : Bool) : Instr :=
  match hold, takes with
  | true, _ => .hostResetHold
  | false, false => .hostIdle
  | false, true => .hostXfer

/-- The operations of the six units whose selectors always name one, and of the FrameController if its does,
in a sensor cycle out of reset (R62). -/
def State.unitOps (s : State) : List (Option Instr) :=
  [some (powerOp s.now.power.state),
    some (serOp .cmd s.now.cmdSer.haveWord (rRdy s.now.cmdQ) (s.now.cmdSer.bitcnt + 1 == 14)),
    some (serOp .bias s.now.biasSer.haveWord (rRdy s.now.biasQ) (s.now.biasSer.bitcnt + 1 == 7)),
    some (captureOp s.now.latchEn (s.now.des.dcnt == 13)),
    some (emitOp s.now.des.haveData s.bwRdy s.now.des.emitSt),
    frameOp s.now.frame.state,
    some (biasOp s.now.inj.active s.now.inj.phase)]

/-- The conditions the spec puts on an operation's queue accesses, which its selector implies: a pop needs
data (R32), a push into the bridging queue needs space (R31), and FC.SENDCMD needs its command word, which
every valid configuration has (R10). A push to a full `cmd_q` or `bias_q` is no such condition: it faults
(R34). -/
def State.Legal (s : State) : Instr → Prop
  | .serLoad .cmd => s.now.cmdQ ≠ []
  | .serLoad .bias => s.now.biasQ ≠ []
  | .hostXfer => s.now.bridgeQ ≠ []
  | .emitEvenLo | .emitEvenHi | .emitOddLo | .emitOddHi => s.now.bridgeQ.length < s.cfg.bridgeDepth
  | .fcSendcmd => s.now.frame.cmdIdx < s.cfg.cmdWords.length
  | .sensorHeld | .psInit | .psRail3v3 | .psRail2v5 | .psBoost | .serIdle _ | .serShift _ | .serLast _
  | .desClr | .desAcc | .desCap | .emitIdle | .emitStall
  | .fcPowerup | .fcInit | .fcSendcmdStrobe | .fcSendcmdAdvance | .fcWaitFrameStart | .fcReadline
  | .fcWaitline | .fcInterframe | .biasIdle | .biasWrite | .biasStrobe
  | .hostResetHold | .hostIdle | .sysReset => True

/-- Perform operations one after the other on the same cycle. -/
def execAll : List Instr → State → Result
  | [], s => .next s
  | i :: is, s => andThen (exec i s) (execAll is)

/-! ### Runs -/

/-- A run of the two agents without a system reset and without a recorded fault, under any interleaving and any
inputs. -/
inductive FaultFreeRun : State → State → Prop where
  | refl (s : State) : FaultFreeRun s s
  | step {s t u : State} : FaultFreeRun s t → t.draw.turn ≠ .reset → step t = .next u →
      u.now.fault = none → FaultFreeRun s u

/-- The sensor domain is out of reset (R23). -/
abbrev State.Running (s : State) : Prop := s.cfg.rstHold ≤ s.now.rstCnt

/-- The next step is a sensor cycle of the seven units (R62): a valid configuration, no fault recorded, the
sensor's turn, out of reset. -/
structure State.SensorCycle (s : State) : Prop where
  valid : s.cfg.Valid
  noFault : s.now.fault = none
  turn : s.draw.turn = .sensor
  running : s.Running

/-- A sensor cycle of the seven units that records no fault. -/
structure SensorStep (s t : State) : Prop where
  cycle : s.SensorCycle
  next : step s = .next t
  noFault : t.now.fault = none

/-- A run without faults within one line, under any interleaving with host cycles: the sensor cycles it performs,
each with `latch_en` = 1, by the states they start in (R99). -/
inductive LineRun : State → List State → State → Prop where
  | refl (s : State) : LineRun s [] s
  | sensor {s t u : State} {us : List State} : s.now.latchEn = true → SensorStep s t → LineRun t us u →
      LineRun s (s :: us) u
  | host {s t u : State} {us : List State} : s.draw.turn = .host → step s = .next t → LineRun t us u →
      LineRun s us u

/-- A setup, the spec's notation for a program of the block (R68): the configuration, the stimulus of each input
by the number of the sensor cycle, and how many sensor cycles to run. A readiness that is always seen is
`exact`. -/
structure Setup where
  cfg : Params
  lanes : Nat → Bool × Bool
  bwSees : Nat → Bool
  brSees : Nat → Bool
  hostReady : Nat → Bool
  /-- The debug bus by the number of the sensor cycle: any value (R141, U8). The notation of R68 has no entry for it;
  the model adds this one, so that a setup fixes no byte (DESIGN CHOICE, log entry 19). -/
  debug : Nat → Byte
  cycles : Nat

/-- The sensor step of cycle `t` under a setup, with the setup's own byte on the debug bus (log entry 19). -/
def Setup.sensorDraw (p : Setup) (t : Nat) : Draw :=
  ⟨.sensor, (p.lanes t).1, (p.lanes t).2, p.bwSees t, p.brSees t, p.hostReady t, p.debug t⟩

/-- The host step after cycle `t` under a setup, under the stimulus of that cycle (DESIGN CHOICE, log entry 19). -/
def Setup.hostDraw (p : Setup) (t : Nat) : Draw := { p.sensorDraw t with turn := .host }

/-- The inputs of a setup's run: the reset hold, then one sensor and one host step after the other
(spec/95_test_vectors.md, "Schedule"). The hold is here its host steps alone, under the stimulus of cycle 0 (DESIGN
CHOICE, log entry 19). -/
def Setup.script (p : Setup) : List Draw :=
  List.replicate p.cfg.rstHold (p.hostDraw 0)
    ++ (List.range p.cycles).flatMap fun t => [p.sensorDraw t, p.hostDraw t]

/-- The state a setup starts from. -/
def Setup.start (p : Setup) : State := { State.resetOf p.cfg with script := p.script }

/-- The pseudo-operation `CMD k`, three cycles (R69). -/
def pseudoCmd : List Instr := [.fcSendcmd, .fcSendcmdStrobe, .fcSendcmdAdvance]

/-- The pseudo-operation `BIASW`, two cycles (R69). -/
def pseudoBiasw : List Instr := [.biasWrite, .biasStrobe]

/-- Weak fairness of an infinite run (spec/20_memory.md R49): both agents take infinitely many steps, and a
side of the bridge whose data (space) stays there sees it infinitely often. The step itself takes no such
choice: every run is a run of the model, fair or not (log entry 13). -/
structure Fair (run : Nat → State) : Prop where
  isRun : ∀ n, step (run n) = .next (run (n + 1))
  sensorMoves : ∀ n, ∃ m ≥ n, (run m).draw.turn = .sensor
  hostMoves : ∀ n, ∃ m ≥ n, (run m).draw.turn = .host
  hostSees : ∀ n, (∀ m ≥ n, (run m).draw.turn = .host → (run m).now.bridgeQ ≠ []) →
    ∀ k ≥ n, ∃ m ≥ k, (run m).draw.turn = .host ∧ (run m).brRdy = true
  sensorSees : ∀ n, (∀ m ≥ n, (run m).draw.turn = .sensor →
      (run m).now.bridgeQ.length < (run m).cfg.bridgeDepth) →
    ∀ k ≥ n, ∃ m ≥ k, (run m).draw.turn = .sensor ∧ (run m).bwRdy = true

/-! ### The invariant -/

/-- `ps_cnt` stays below the delay of its state (R18, R70). -/
def Power.Ok (cfg : Params) (p : Power) : Prop :=
  match p.state with
  | .init => p.cnt < cfg.dInit
  | .rail3v3 => p.cnt < cfg.d3v3
  | .rail2v5 => p.cnt < cfg.d2v5
  | .boostEnabled => p.cnt = 0

/-- The part of a shift register that has been sent is zero (R80, R84): `sent` bits at the low end when the
most significant bit goes first, at the high end otherwise. -/
def sentBitsZero {w : Nat} (o : BitOrder) (sr : BitVec w) (sent : Nat) : Prop :=
  match o with
  | .msbFirst => sr.toNat % 2 ^ sent = 0
  | .lsbFirst => sr.toNat < 2 ^ (w - sent)

/-- A serializer between words is clear; within a word its bit count and the bits left agree (R20, R64, R80). -/
def Serializer.Ok {w : Nat} (o : BitOrder) (x : Serializer w) : Prop :=
  if x.haveWord then 1 ≤ x.bitcnt ∧ x.bitcnt < w ∧ sentBitsZero o x.sr x.bitcnt
  else x.bitcnt = 0 ∧ x.sr = 0

/-- The accumulators hold `dcnt` bits (R90), and an emission in progress has a pair to emit (R93). -/
def Deserializer.Ok (d : Deserializer) : Prop :=
  d.dcnt ≤ 13 ∧ d.accE.toNat < 2 ^ d.dcnt ∧ d.accO.toNat < 2 ^ d.dcnt ∧
    (d.haveData = false → d.emitSt = .evenLow)

/-- The bias registers (R19, R113). -/
def Injector.Ok (cfg : Params) (j : Injector) : Prop :=
  if j.active then j.cnt < cfg.biasWrites else j.phase = false ∧ j.cnt = 0

/-- The counters of each FrameController state (R19, R103, R105, R108): a counter a state does not use is at
the value it has on entry. No reserved value of `fc_state` satisfies it (R66). -/
def Frame.Ok (cfg : Params) (f : Frame) : Prop :=
  (f.state = Fc.powerup ∧ f.initCnt = 0 ∧ f.cmdIdx = 0 ∧ f.lineCnt = 0 ∧ f.rowCnt = 0) ∨
  (f.state = Fc.init ∧ f.initCnt < cfg.initCycles ∧ f.cmdIdx = 0 ∧ f.lineCnt = 0 ∧ f.rowCnt = 0) ∨
  ((f.state = Fc.sendCmd ∨ f.state = Fc.sendCmdStrobe ∨ f.state = Fc.sendCmdAdvance) ∧
    f.initCnt = 0 ∧ f.lineCnt = 0 ∧ f.rowCnt = 0) ∨
  (f.state = Fc.waitFrameStart ∧ f.initCnt = 0 ∧ f.cmdIdx = 11 ∧ f.lineCnt < cfg.cmdToLineStart ∧
    f.rowCnt = 0) ∨
  (f.state = Fc.readLine ∧ f.initCnt = 0 ∧ f.cmdIdx = 11 ∧ f.lineCnt < cfg.lineCycles ∧
    f.rowCnt < cfg.rows) ∨
  (f.state = Fc.waitLine ∧ f.initCnt = 0 ∧ f.cmdIdx = 11 ∧ f.lineCnt < cfg.lineStartOffset ∧
    1 ≤ f.rowCnt ∧ f.rowCnt < cfg.rows) ∨
  (f.state = Fc.interFrame ∧ f.initCnt = 0 ∧ f.cmdIdx = 0 ∧ f.lineCnt < cfg.interFrameCycles ∧
    f.rowCnt = 0)

/-- Every register of the sensor domain is at its reset value (R146). -/
def Regs.SensorAtReset (r : Regs) : Prop :=
  r.power = Power.reset ∧ r.frame = Frame.reset ∧ r.inj = Injector.reset ∧
    r.cmdSer = Serializer.reset 14 ∧ r.biasSer = Serializer.reset 7 ∧ r.des = Deserializer.reset

/-- The invariant of the registers, from the ranges of spec/10_state.md sections 2 to 7. -/
structure Regs.Ok (cfg : Params) (r : Regs) : Prop where
  power : r.power.Ok cfg
  frame : r.frame.Ok cfg
  /-- Once out of Powerup the rails stay on (R104, R144). -/
  powered : r.frame.state ≠ Fc.powerup → r.power.state = .boostEnabled
  inj : r.inj.Ok cfg
  cmdSer : r.cmdSer.Ok cfg.cmdBitOrder
  biasSer : r.biasSer.Ok cfg.biasBitOrder
  des : r.des.Ok
  /-- R47. -/
  cmdQ : r.cmdQ.length ≤ cfg.cmdQDepth
  /-- R47. -/
  biasQ : r.biasQ.length ≤ cfg.biasQDepth
  /-- R47. -/
  bridgeQ : r.bridgeQ.length ≤ cfg.bridgeDepth
  /-- R23. -/
  rstCnt : r.rstCnt ≤ cfg.rstHold
  /-- During the reset hold nothing has moved (R143, R147). -/
  hold : r.rstCnt < cfg.rstHold → r.SensorAtReset ∧ r.cmdQ = [] ∧ r.biasQ = [] ∧ r.bridgeQ = []

/-- The invariant of the machine between steps. -/
structure State.Inv (s : State) : Prop where
  /-- Scheduled writes have taken effect (R13). -/
  settled : s.nxt = s.now
  regs : s.now.Ok s.cfg

/-! ### Schedules: the exact positions of the two serial streams against the FrameController -/

/-- The FrameController is sending the command words, `e` cycles after the first SendCmd cycle (R118). -/
def Frame.sending (f : Frame) (e : Nat) : Prop :=
  (f.state = Fc.sendCmd ∧ e = 3 * f.cmdIdx.val) ∨
  (f.state = Fc.sendCmdStrobe ∧ e = 3 * f.cmdIdx.val + 1) ∨
  (f.state = Fc.sendCmdAdvance ∧ e = 3 * f.cmdIdx.val + 2)

/-- `m` cycles after its first load the CommandSerializer, fed without a gap, has loaded `(m + 13) / 14` words,
and is at bit `m % 14` (R118, R150). -/
def Regs.cmdStreamAt (r : Regs) (pushed m : Nat) : Prop :=
  r.cmdQ.length + (m + 13) / 14 = pushed ∧ r.cmdSer.bitcnt = m % 14 ∧
    (r.cmdSer.haveWord = true ↔ m % 14 ≠ 0)

/-- The position of the command stream in every state of the FrameController (R118, R150): idle and empty
outside the sending and the wait for `cmd_done`; in SendCmd of word k, 3k - 1 cycles after the first load. -/
structure Regs.CmdSchedule (r : Regs) : Prop where
  sending : ∀ e, r.frame.sending e →
    r.cmdStreamAt (r.frame.cmdIdx.val + (if r.frame.state = Fc.sendCmd then 0 else 1)) (e - 1)
  waiting : r.frame.state = Fc.waitFrameStart →
    (r.frame.lineCnt = 0 ∧ ∃ m, 35 ≤ m ∧ m < 168 ∧ r.cmdStreamAt 12 m) ∨ r.cmdDone = true
  elsewhere : r.frame.state = Fc.powerup ∨ r.frame.state = Fc.init ∨ r.frame.state = Fc.readLine ∨
    r.frame.state = Fc.waitLine ∨ r.frame.state = Fc.interFrame → r.cmdDone = true

/-- The age of a burst: cycles since its first one. -/
def Injector.age (j : Injector) : Nat := 2 * j.cnt + j.phase.toNat

/-- How old a burst still active must be at each position of the frame, if any may be (R118, R152): it starts
B cycles before a line. -/
def Frame.burstAge (cfg : Params) (f : Frame) : Option Nat :=
  if f.state = Fc.waitFrameStart then
    if cfg.cmdToLineStart ≤ f.lineCnt + cfg.biasToLatch then
      some (f.lineCnt + cfg.biasToLatch - cfg.cmdToLineStart)
    else none
  else if f.state = Fc.readLine then some (cfg.biasToLatch + f.lineCnt)
  else if f.state = Fc.waitLine then
    if cfg.lineStartOffset ≤ f.lineCnt + cfg.biasToLatch then
      some (f.lineCnt + cfg.biasToLatch - cfg.lineStartOffset)
    else some (cfg.biasToLatch + cfg.lineCycles + f.lineCnt)
  else if f.state = Fc.interFrame then some (cfg.biasToLatch + cfg.lineCycles + f.lineCnt)
  else none

/-- An active burst has the age its position gives (R152). -/
def Regs.BiasSchedule (cfg : Params) (r : Regs) : Prop :=
  r.inj.active = true → r.frame.burstAge cfg = some r.inj.age

/-- `p` cycles after the first cycle of a burst of `n` writes, the writes made and the words the BiasSerializer has
loaded since (R151): write k is in cycle 2k, load j in cycle 1 + 7j. In the first cycle the last bit of an
earlier burst may still be leaving. -/
def Regs.biasStreamAt (r : Regs) (n p : Nat) : Prop :=
  r.biasQ.length + min n ((p + 5) / 7) = min n ((p + 1) / 2) ∧
    (r.biasSer.haveWord = true ↔ r.biasSer.bitcnt ≠ 0) ∧
    if p = 0 then r.biasSer.bitcnt = 0 ∨ r.biasSer.bitcnt = 6
    else r.biasSer.bitcnt = if p ≤ 7 * n then (p - 1) % 7 else 0

/-- The position of the bias stream in every state of the FrameController, when a burst's words leave before the
next burst (R151): idle outside the bursts and their serialization, and otherwise as the age of the last
burst says. -/
structure Regs.BiasStream (cfg : Params) (r : Regs) : Prop where
  burst : ∀ p, r.frame.burstAge cfg = some p →
    (r.inj.active = true ↔ p < 2 * cfg.biasWrites) ∧ (r.inj.active = true → r.inj.age = p) ∧
      r.biasStreamAt cfg.biasWrites p
  idle : r.frame.burstAge cfg = none → r.inj.active = false ∧ r.biasDone = true

/-- The emission keeps ahead of the accumulation (R101): while a pair waits, fewer bits of the next one have
been accumulated than bytes of it have been sent, or as many. -/
def Deserializer.Ahead (d : Deserializer) : Prop :=
  d.haveData = true → d.dcnt ≤ d.emitSt.code.toNat

/-- The capture periods start with the line (R39, R99): within a line `dcnt` is the cycle of the period, in the
cycle after a line it counts the bits left over (R128), and elsewhere it is 0. -/
structure Regs.Aligned (cfg : Params) (r : Regs) : Prop where
  within : r.frame.state = Fc.readLine → r.des.dcnt = r.frame.lineCnt % 14
  after : r.frame.state = Fc.waitLine ∨ r.frame.state = Fc.interFrame → r.frame.lineCnt = 0 →
    r.des.dcnt = cfg.lineCycles % 14
  elsewhere : r.frame.state ≠ Fc.readLine →
    ¬ ((r.frame.state = Fc.waitLine ∨ r.frame.state = Fc.interFrame) ∧ r.frame.lineCnt = 0) →
    r.des.dcnt = 0

/-- The registers of the power sequence, the frame timing, the bias injection and the serializers, and the two
queues between them, are the same (R119): everything that does not depend on the lanes, the bridge or the host. -/
structure Regs.SameControl (r r' : Regs) : Prop where
  power : r'.power = r.power
  frame : r'.frame = r.frame
  inj : r'.inj = r.inj
  cmdSer : r'.cmdSer = r.cmdSer
  biasSer : r'.biasSer = r.biasSer
  cmdQ : r'.cmdQ = r.cmdQ
  biasQ : r'.biasQ = r.biasQ
  cycle : r'.cycle = r.cycle
  fault : r'.fault = r.fault

/-! ### The clock of a run -/

/-- The cycles the PowerSequencer has spent since reset, counted up to P (R70, R78). -/
def Power.elapsed (cfg : Params) (p : Power) : Nat :=
  match p.state with
  | .init => p.cnt
  | .rail3v3 => cfg.dInit + p.cnt
  | .rail2v5 => cfg.dInit + cfg.d3v3 + p.cnt
  | .boostEnabled => cfg.readyCycle

/-- The cycles since the last entry to Init (R118), read from the registers: from the counters, and in the wait
for `cmd_done` from the words and bits still to be sent. -/
def Regs.framePos (cfg : Params) (r : Regs) : Nat :=
  let f := r.frame
  if f.state = Fc.init then f.initCnt
  else if f.state = Fc.sendCmd then cfg.initCycles + 3 * f.cmdIdx.val
  else if f.state = Fc.sendCmdStrobe then cfg.initCycles + 3 * f.cmdIdx.val + 1
  else if f.state = Fc.sendCmdAdvance then cfg.initCycles + 3 * f.cmdIdx.val + 2
  else if f.state = Fc.waitFrameStart then
    cfg.initCycles + 1 + f.lineCnt
      + (14 * (12 - r.cmdQ.length) - if r.cmdSer.haveWord then 14 - r.cmdSer.bitcnt else 0)
  else if f.state = Fc.readLine then cfg.lineStart f.rowCnt + f.lineCnt
  else if f.state = Fc.waitLine then cfg.lineStart (f.rowCnt - 1) + cfg.lineCycles + f.lineCnt
  else cfg.lineStart (cfg.rows - 1) + cfg.lineCycles + f.lineCnt

/-- The registers are where the number of the sensor cycle says they are (R78, R118). -/
structure Regs.OnTime (cfg : Params) (r : Regs) : Prop where
  power : r.power.elapsed cfg = min cfg.readyCycle r.cycle
  powerup : r.frame.state = Fc.powerup ↔ r.cycle ≤ cfg.readyCycle
  frame : r.frame.state ≠ Fc.powerup →
    r.framePos cfg = (r.cycle - (cfg.readyCycle + 1)) % cfg.framePeriod

/-- With one line in a frame, an active burst has the age its position in the frame gives (R152): it starts B cycles
before the line and may last into the next frame. -/
def Regs.BiasScheduleOneRow (cfg : Params) (r : Regs) : Prop :=
  r.inj.active = true → r.frame.state ≠ Fc.powerup ∧
    r.inj.age = (r.framePos cfg + cfg.framePeriod - (cfg.lineStart 0 - cfg.biasToLatch)) % cfg.framePeriod

/-! ### Streams of bits and bytes -/

/-- The bits of a word in the order they are sent (R35, R56). -/
def wordBits {w : Nat} (o : BitOrder) (v : BitVec w) : List Bool :=
  match o with
  | .msbFirst => (List.range w).map fun k => v.getLsbD (w - 1 - k)
  | .lsbFirst => (List.range w).map fun k => v.getLsbD k

/-- The bits a serializer and its queue have still to send, the next one first (R85). -/
def pendingBits {w : Nat} (o : BitOrder) (x : Serializer w) (q : List (BitVec w)) : List Bool :=
  (if x.haveWord then (wordBits o x.sr).take (w - x.bitcnt) else []) ++ q.flatMap (wordBits o)

/-- The bits an accumulator of `n` bits has taken from its lane, in the order they arrived (R36). -/
def arrived (acc : Sample) (n : Nat) : List Bool :=
  (List.range n).map fun i => acc.getLsbD (n - 1 - i)

/-- The four bytes of a captured pair (R58). -/
def record (e o : Sample) : List Byte := [lowByte e, highByte e, lowByte o, highByte o]

/-- The bytes a SampleDeserializer has still to emit (R58, R92). -/
def Deserializer.pendingBytes (d : Deserializer) : List Byte :=
  if d.haveData then (record d.outE d.outO).drop d.emitSt.code.toNat else []

/-! ### A sensor cycle, register by register -/

namespace Rtl

/-- The next value of the PowerSequencer's registers (R70, R71). -/
def power (cfg : Params) (p : Power) : Power :=
  match p.state with
  | .init => if cfg.dInit ≤ p.cnt + 1 then ⟨.rail3v3, 0⟩ else ⟨.init, p.cnt + 1⟩
  | .rail3v3 => if cfg.d3v3 ≤ p.cnt + 1 then ⟨.rail2v5, 0⟩ else ⟨.rail3v3, p.cnt + 1⟩
  | .rail2v5 => if cfg.d2v5 ≤ p.cnt + 1 then ⟨.boostEnabled, 0⟩ else ⟨.rail2v5, p.cnt + 1⟩
  | .boostEnabled => p

/-- The next value of a serializer's registers (R81 to R84). -/
def serializer {w : Nat} (o : BitOrder) (x : Serializer w) (q : List (BitVec w)) : Serializer w :=
  if x.haveWord then
    if x.bitcnt + 1 = w then ⟨shift o x.sr, false, 0⟩ else ⟨shift o x.sr, true, x.bitcnt + 1⟩
  else
    match q with
    | [] => x
    | word :: _ => ⟨shift o word, true, 1⟩

/-- A queue after a cycle with an optional pop and an optional push (R33). -/
def queue {α : Type} (q : List α) (pop : Bool) (push : Option α) : List α :=
  (if pop then q.tail else q) ++ push.toList

/-- A serializer loads in this cycle (R82). -/
def loads {w : Nat} (x : Serializer w) (q : List (BitVec w)) : Bool := !x.haveWord && rRdy q

/-- The command word pushed in this cycle (R106). -/
def cmdPush (s : State) : Option CmdWord :=
  if s.now.frame.state = Fc.sendCmd then s.cfg.cmdWord? s.now.frame.cmdIdx else none

/-- The bias word pushed in this cycle (R114). -/
def biasPush (s : State) : Option BiasWord :=
  if s.now.inj.active && !s.now.inj.phase then some s.cfg.biasWord else none

/-- The byte emitted in this cycle (R95 to R98). -/
def emitted (s : State) : Option Byte :=
  if s.now.des.haveData && s.bwRdy then
    match s.now.des.emitSt with
    | .evenLow => some (lowByte s.now.des.outE)
    | .evenHigh => some (highByte s.now.des.outE)
    | .oddLow => some (lowByte s.now.des.outO)
    | .oddHigh => some (highByte s.now.des.outO)
  else none

/-- The emit state that follows (R95 to R98). -/
def emitSucc : EmitState → EmitState
  | .evenLow => .evenHigh
  | .evenHigh => .oddLow
  | .oddLow => .oddHigh
  | .oddHigh => .evenLow

/-- The next value of an accumulator (R89 to R91). -/
def acc (s : State) (a : Sample) (lane : Bool) : Sample :=
  if s.now.latchEn && s.now.des.dcnt != 13 then accumulate a lane else 0

/-- The next value of the SampleDeserializer's registers (R89 to R98). -/
def deserializer (s : State) : Deserializer where
  accE := acc s s.now.des.accE s.draw.laneE
  accO := acc s s.now.des.accO s.draw.laneO
  dcnt := if s.now.latchEn && s.now.des.dcnt != 13 then s.now.des.dcnt + 1 else 0
  outE := if s.now.captures then rev14 (accumulate s.now.des.accE s.draw.laneE) else s.now.des.outE
  outO := if s.now.captures then rev14 (accumulate s.now.des.accO s.draw.laneO) else s.now.des.outO
  haveData := s.now.captures || (s.now.des.haveData && !s.emitsOddHigh)
  emitSt := if (emitted s).isSome then emitSucc s.now.des.emitSt else s.now.des.emitSt

/-- The next value of the bias registers (R113 to R116). -/
def injector (s : State) : Injector :=
  if s.now.inj.active then
    if s.now.inj.phase then
      if s.now.inj.cnt + 1 = s.cfg.biasWrites then ⟨false, false, 0⟩
      else ⟨true, false, s.now.inj.cnt + 1⟩
    else ⟨true, true, s.now.inj.cnt⟩
  else if s.biasTrigger then ⟨true, false, 0⟩
  else s.now.inj

/-- The length of the counted wait or line a `fc_state` is, for the states that count `line_cnt` (R7, R109
to R112). -/
def lineLength (cfg : Params) (st : BitVec 4) : Option Nat :=
  if st = Fc.waitFrameStart then some cfg.cmdToLineStart
  else if st = Fc.readLine then some cfg.lineCycles
  else if st = Fc.waitLine then some cfg.lineStartOffset
  else if st = Fc.interFrame then some cfg.interFrameCycles
  else none

/-- `line_cnt` counts in this cycle (R109 to R112). -/
def counts (s : State) : Bool :=
  (lineLength s.cfg s.now.frame.state).isSome && (s.now.frame.state != Fc.waitFrameStart || s.now.cmdDone)

/-- The counted state ends with this cycle (R103). -/
def lineEnds (s : State) : Bool :=
  counts s && some (s.now.frame.lineCnt + 1) == lineLength s.cfg s.now.frame.state

/-- This cycle ends the last line of a frame (R110). -/
def frameEnds (s : State) : Bool :=
  lineEnds s && s.now.frame.state == Fc.readLine && s.now.frame.rowCnt + 1 == s.cfg.rows

/-- The next `fc_state` (R104 to R112); a reserved value stays. -/
def fcState (s : State) : BitVec 4 :=
  let f := s.now.frame
  if f.state = Fc.powerup then if s.now.ready then Fc.init else f.state
  else if f.state = Fc.init then if f.initCnt + 1 = s.cfg.initCycles then Fc.sendCmd else f.state
  else if f.state = Fc.sendCmd then Fc.sendCmdStrobe
  else if f.state = Fc.sendCmdStrobe then Fc.sendCmdAdvance
  else if f.state = Fc.sendCmdAdvance then if f.cmdIdx = 11 then Fc.waitFrameStart else Fc.sendCmd
  else if lineEnds s then
    if f.state = Fc.readLine then if frameEnds s then Fc.interFrame else Fc.waitLine
    else if f.state = Fc.interFrame then Fc.init
    else Fc.readLine
  else f.state

/-- The next value of the FrameController's registers (R104 to R112). -/
def frame (s : State) : Frame where
  state := fcState s
  initCnt :=
    if s.now.frame.state = Fc.powerup && s.now.ready then 0
    else if s.now.frame.state = Fc.init then
      if s.now.frame.initCnt + 1 = s.cfg.initCycles then 0 else s.now.frame.initCnt + 1
    else if lineEnds s && s.now.frame.state == Fc.interFrame then 0
    else s.now.frame.initCnt
  cmdIdx :=
    if s.now.frame.state = Fc.sendCmdAdvance && s.now.frame.cmdIdx != 11 then s.now.frame.cmdIdx + 1
    else if frameEnds s then 0
    else s.now.frame.cmdIdx
  lineCnt :=
    if s.now.frame.state = Fc.sendCmdAdvance && s.now.frame.cmdIdx == 11 then 0
    else if lineEnds s then 0
    else if counts s then s.now.frame.lineCnt + 1
    else s.now.frame.lineCnt
  rowCnt :=
    if frameEnds s then 0
    else if lineEnds s && s.now.frame.state == Fc.readLine then s.now.frame.rowCnt + 1
    else s.now.frame.rowCnt

/-- The registers after a fault-free sensor cycle. -/
def regs (s : State) : Regs where
  power := power s.cfg s.now.power
  frame := frame s
  inj := injector s
  cmdSer := serializer s.cfg.cmdBitOrder s.now.cmdSer s.now.cmdQ
  biasSer := serializer s.cfg.biasBitOrder s.now.biasSer s.now.biasQ
  des := deserializer s
  cmdQ := queue s.now.cmdQ (loads s.now.cmdSer s.now.cmdQ) (cmdPush s)
  biasQ := queue s.now.biasQ (loads s.now.biasSer s.now.biasQ) (biasPush s)
  bridgeQ := queue s.now.bridgeQ false (emitted s)
  rstCnt := s.now.rstCnt
  hostStream := s.now.hostStream
  fault := none
  overrunCount := if s.now.captures && s.overruns then s.now.overrunCount + 1 else s.now.overrunCount
  cycle := s.now.cycle + 1

/-- The fault a sensor cycle records, by the order of R134. -/
def fault (s : State) : Option FaultRecord :=
  if 9 ≤ s.now.frame.state.toNat then some ⟨.illegalState, s.now.cycle, s.now.frame.state.toNat⟩
  else if s.biasTrigger && s.now.inj.active then some ⟨.biasRetrigger, s.now.cycle, s.now.inj.cnt⟩
  else if (cmdPush s).isSome && !wRdy s.now.cmdQ s.cfg.cmdQDepth then
    some ⟨.cmdQueueOverflow, s.now.cycle, s.now.frame.cmdIdx⟩
  else if (biasPush s).isSome && !wRdy s.now.biasQ s.cfg.biasQDepth then
    some ⟨.biasQueueOverflow, s.now.cycle, s.now.inj.cnt⟩
  else none

/-- The registers after a sensor cycle: the next values together, or, after a fault, the old ones with the
fault recorded (R13, R133). -/
def next (s : State) : Regs :=
  match fault s with
  | none => regs s
  | some f => { s.now with fault := some f }

end Rtl

end Machine

end Sys2Proof
end

