-- ==== Sys2Proof/Certificates/Slice0/Obligations.lean ====
section
/-! DEFINITION. The statements for the provers. A docstring names the rule or section of the spec it formalises.
"Stated" statements cite a rule; the others rest on rules the spec marks as its own decision or inference, and
name the decision. A queue or register of the scheduled values `nxt` is what `<-` writes (R13). -/

open Sys2Proof Sys2Proof.Machine

/-! ### Encodings -/

/-- spec/30_encoding.md section 3 (the operation map; decision D22; the tag byte is log entry 6): the bytes of a
selector word decode to an operation exactly when the value fits its format, the operation belongs to the format
and the masked value is its match; what follows is left over. -/
def Obligations.DecodeFollowsTheOperationMap : Prop :=
  ∀ (w : SelWord) (rest rest' : List Byte) (i : Instr),
    decode (w.bytes ++ rest) = .ok (i, rest') ↔
      w.WellFormed ∧ i.format = w.format ∧ w.sel &&& i.pattern.mask = i.pattern.value ∧ rest' = rest

/-- spec/30_encoding.md sections 3 and 4 (decisions D22, D23): in each format of more than one bit every value
selects exactly one operation, but for `sel_fc` 9 .. 15, which are rejected as reserved; a one-bit selector of 1
selects its operation. The byte layout read under `decode`, that a one-bit selector of 0 selects none and that a
value too wide for its format is rejected are the model's own (log entry 6). -/
def Obligations.SelectorsNameOneOperation : Prop :=
  ∀ (w : SelWord) (rest : List Byte),
    (w.WellFormed → w.format ≠ .selSensor → w.format ≠ .event →
      ¬ (w.format = .selFc ∧ 9 ≤ w.sel.toNat) →
      ∃! i : Instr, i.format = w.format ∧ w.sel &&& i.pattern.mask = i.pattern.value) ∧
    (w.WellFormed → w.format = .selFc → 9 ≤ w.sel.toNat →
      decode (w.bytes ++ rest) = .error .reservedFcState) ∧
    (w.format = .selSensor ∨ w.format = .event → w.sel = 0 →
      decode (w.bytes ++ rest) = .error .noOperation) ∧
    (w.format = .selSensor → w.sel = 1 → decode (w.bytes ++ rest) = .ok (.sensorHeld, rest)) ∧
    (w.format = .event → w.sel = 1 → decode (w.bytes ++ rest) = .ok (.sysReset, rest)) ∧
    (2 ^ w.format.width ≤ w.sel.toNat → decode (w.bytes ++ rest) = .error .bitsAboveSelector)

/-- spec/30_encoding.md section 3 (decision D22; the two bytes of a word, its tag and the zero filler bits are the
model's, log entry 6): every operation is read back from its encoding, whatever follows, and so is every selector
word that differs from it only in bits its mask leaves out. -/
def Obligations.EncodedOperationsDecode : Prop :=
  ∀ (i : Instr) (rest : List Byte),
    i.selWord.WellFormed ∧ decode (encode i ++ rest) = .ok (i, rest) ∧
      ∀ x : Byte, x.toNat < 2 ^ i.format.width →
        decode ([(i.pattern.value &&& i.pattern.mask) ||| (x &&& ~~~ i.pattern.mask), i.format.tag] ++ rest)
          = .ok (i, rest)

/-- spec/30_encoding.md section 3: one selector value of each format, with the operation the map gives it. -/
def Obligations.WordsOfTheOperationMap : Prop :=
  decodeSel ⟨.selSensor, 0b1⟩ = .ok .sensorHeld ∧ decodeSel ⟨.selPs, 0b10⟩ = .ok .psRail2v5 ∧
    decodeSel ⟨.selSer .cmd, 0b011⟩ = .ok (.serLoad .cmd) ∧
    decodeSel ⟨.selSer .bias, 0b111⟩ = .ok (.serLast .bias) ∧ decodeSel ⟨.selDes, 0b11⟩ = .ok .desCap ∧
    decodeSel ⟨.selEmit, 0b1101⟩ = .ok .emitEvenHi ∧ decodeSel ⟨.selFc, 0b0101⟩ = .ok .fcWaitFrameStart ∧
    decodeSel ⟨.selFc, 0b1001⟩ = .error .reservedFcState ∧ decodeSel ⟨.selBias, 0b10⟩ = .ok .biasWrite ∧
    decodeSel ⟨.selHost, 0b01⟩ = .ok .hostXfer ∧ decodeSel ⟨.event, 0b1⟩ = .ok .sysReset

/-! ### Steps -/

/-- spec/30_encoding.md section 3 (decision D1): under a valid configuration and without a recorded fault, a step
whose fetched selector words decode to operations performs exactly these, one after the other on the
start-of-cycle values, and commits the writes together. That it also counts the sensor cycle is log entry 11, that
it uses up the inputs of the step (`nextDraw`: script and tick) is log entry 2: both are the model's. -/
def Obligations.StepRunsTheDecodedOperations : Prop :=
  ∀ (s : State) (is : List Instr), s.cfg.Valid → s.now.fault = none →
    s.fetch.map (fun w => decode w.bytes) = is.map (fun i => .ok (i, [])) →
    step s = andThen (execAll is s.startCycle) fun t => .next t.countCycle.commit.nextDraw

/-- spec/30_encoding.md sections 3 and 4 (decisions D1, D22): what each step fetches decodes to one operation of
each of the seven units in a sensor cycle out of reset (the FrameController's only if `fc_state` names a
state), to SENSOR.HELD while held, to one HOST operation in a host cycle, and to SYS.RESET. -/
def Obligations.FetchSelectsTheUnitsOperations : Prop :=
  ∀ s : State,
    (s.draw.turn = .sensor → s.sensorRst = false →
      s.fetch.map (fun w => (decode w.bytes).toOption) = s.unitOps.map (fun o => o.map fun i => (i, []))) ∧
    (s.draw.turn = .sensor → s.sensorRst = true →
      s.fetch.map (fun w => decode w.bytes) = [.ok (.sensorHeld, [])]) ∧
    (s.draw.turn = .host →
      s.fetch.map (fun w => decode w.bytes) = [.ok (hostOp s.sensorRst s.hostTakes, [])]) ∧
    (s.draw.turn = .reset → s.fetch.map (fun w => decode w.bytes) = [.ok (.sysReset, [])])

/-- R16: a component's registers are written by that component's operations alone; an operation changes nothing
but scheduled values of its own component and the queues it feeds or drains; `latch_en` is the
FrameController's. -/
def Obligations.UnitsWriteOnlyTheirOwn : Prop :=
  (∀ (i : Instr) (s t : State), exec i s = .next t →
    t = { s with nxt := t.nxt } ∧
      match i.format with
      | .selPs => t.nxt = { s.nxt with power := t.nxt.power }
      | .selSer .cmd => t.nxt = { s.nxt with cmdSer := t.nxt.cmdSer, cmdQ := t.nxt.cmdQ }
      | .selSer .bias => t.nxt = { s.nxt with biasSer := t.nxt.biasSer, biasQ := t.nxt.biasQ }
      | .selDes => t.nxt = { s.nxt with
          des := { t.nxt.des with emitSt := s.nxt.des.emitSt }
          overrunCount := t.nxt.overrunCount }
      | .selEmit => t.nxt = { s.nxt with
          des := { s.nxt.des with haveData := t.nxt.des.haveData, emitSt := t.nxt.des.emitSt }
          bridgeQ := t.nxt.bridgeQ }
      | .selFc => t.nxt = { s.nxt with
          frame := t.nxt.frame, inj := t.nxt.inj, cmdQ := t.nxt.cmdQ, fault := t.nxt.fault }
      | .selBias => t.nxt = { s.nxt with inj := t.nxt.inj, biasQ := t.nxt.biasQ, fault := t.nxt.fault }
      | .selHost => t.nxt = { s.nxt with
          bridgeQ := t.nxt.bridgeQ, rstCnt := t.nxt.rstCnt, hostStream := t.nxt.hostStream }
      | .selSensor => t.nxt = { s.nxt with
          power := Power.reset, frame := Frame.reset, inj := Injector.reset, cmdSer := Serializer.reset 14
          biasSer := Serializer.reset 7, des := Deserializer.reset }
      | .event => t.nxt = { Regs.reset with hostStream := s.nxt.hostStream }) ∧
  ∀ r : Regs, r.latchEn = true ↔ r.frame.state = Fc.readLine

/-- spec/60_exceptions.md section 2 (decisions D3, D24): a step answers a next state exactly when the configuration
is valid and no fault is recorded, or the system reset is asserted; otherwise it refuses the configuration or
reports the end of the run (log entry 3). -/
def Obligations.StepStopsOnlyWhenEnded : Prop :=
  ∀ s : State,
    ((∃ t, step s = .next t) ↔ s.cfg.Valid ∧ (s.now.fault = none ∨ s.draw.turn = .reset)) ∧
    (∀ c, s.cfg.firstFailed = some c → step s = .refused (.paramInvalid c)) ∧
    (∀ f, s.cfg.Valid → s.now.fault = some f → s.draw.turn ≠ .reset → step s = .fault (.runEnded f.code))

/-! ### PowerSequencer -/

/-- spec/41_power_sequencer.md section 2 (decision D4): PS.INIT, PS.RAIL3V3 and PS.RAIL2V5 complete in every state;
they count, or leave for the next state when `ps_cnt >= D - 1`, and change nothing else. -/
def Obligations.PowerStatesAdvance : Prop :=
  ∀ s : State,
    exec .psInit s = .next { s with nxt := { s.nxt with power :=
      if s.cfg.dInit - 1 ≤ s.now.power.cnt then ⟨.rail3v3, 0⟩
      else { s.nxt.power with cnt := s.now.power.cnt + 1 } } } ∧
    exec .psRail3v3 s = .next { s with nxt := { s.nxt with power :=
      if s.cfg.d3v3 - 1 ≤ s.now.power.cnt then ⟨.rail2v5, 0⟩
      else { s.nxt.power with cnt := s.now.power.cnt + 1 } } } ∧
    exec .psRail2v5 s = .next { s with nxt := { s.nxt with power :=
      if s.cfg.d2v5 - 1 ≤ s.now.power.cnt then ⟨.boostEnabled, 0⟩
      else { s.nxt.power with cnt := s.now.power.cnt + 1 } } }

/-- R77: PS.BOOST, selected by 11, changes no register; along every run without a system reset BoostEnabled is
never left, `ps_cnt` holds 0, `ready` is 1 and all rails are enabled. -/
def Obligations.BoostIsForever : Prop :=
  (∀ s : State, exec .psBoost s = .next s) ∧ decodeSel ⟨.selPs, 0b11⟩ = .ok .psBoost ∧
  ∀ s t : State, FaultFreeRun s t → s.Running → s.now.power = ⟨.boostEnabled, 0⟩ →
    t.now.power = ⟨.boostEnabled, 0⟩ ∧ t.signals.ready = true ∧ t.pins.en3v3 = true ∧ t.pins.en2v5 = true ∧
      t.pins.enBoost = true

/-- R73: the PowerSequencer has no input: after two fault-free sensor cycles that start with the same power
registers under the same configuration, whatever else differs, the power registers are the same. -/
def Obligations.PowerHasNoInput : Prop :=
  ∀ s s' t t' : State, SensorStep s t → SensorStep s' t' → s'.cfg = s.cfg → s'.now.power = s.now.power →
    t'.now.power = t.now.power

/-- R144: an agent whose turn it is always steps (under a valid configuration, before a fault); no step but the
system reset turns a rail off; the restart after InterFrame goes to Init with the rails on; a system reset
returns the rails to off. -/
def Obligations.RailsStayOn : Prop :=
  (∀ s : State, s.cfg.Valid → s.now.fault = none → ∃ t, step s = .next t) ∧
  (∀ s t : State, s.Inv → step s = .next t → s.draw.turn ≠ .reset →
    (s.pins.en3v3 = true → t.pins.en3v3 = true) ∧ (s.pins.en2v5 = true → t.pins.en2v5 = true) ∧
    (s.pins.enBoost = true → t.pins.enBoost = true)) ∧
  (∀ s t : State, s.Inv → SensorStep s t → s.now.frame.state = Fc.interFrame →
    t.now.power = s.now.power ∧ t.pins.enBoost = true ∧
    (t.now.frame.state ≠ Fc.interFrame → t.now.frame.state = Fc.init)) ∧
  (∀ s t : State, step s = .next t → s.draw.turn = .reset →
    t.pins.en3v3 = false ∧ t.pins.en2v5 = false ∧ t.pins.enBoost = false)

/-! ### Serializers -/

/-- spec/42_serial_output.md section 3 (decision D14): SER.IDLE, SER.LOAD of a queue that holds a word, and
SER.LAST, of both instances: the registers and the queue they write, and nothing else. -/
def Obligations.SerializerLoadsAndEnds : Prop :=
  (∀ (s : State) (x : SerInst), exec (.serIdle x) s = .next s) ∧
  (∀ (s : State) (w : CmdWord) (q : List CmdWord), s.now.cmdQ = w :: q →
    exec (.serLoad .cmd) s = .next { s with nxt := { s.nxt with
      cmdQ := s.nxt.cmdQ.tail, cmdSer := ⟨shift s.cfg.cmdBitOrder w, true, 1⟩ } }) ∧
  (∀ (s : State) (w : BiasWord) (q : List BiasWord), s.now.biasQ = w :: q →
    exec (.serLoad .bias) s = .next { s with nxt := { s.nxt with
      biasQ := s.nxt.biasQ.tail, biasSer := ⟨shift s.cfg.biasBitOrder w, true, 1⟩ } }) ∧
  (∀ s : State, exec (.serLast .cmd) s = .next { s with nxt := { s.nxt with
    cmdSer := ⟨shift s.cfg.cmdBitOrder s.now.cmdSer.sr, false, 0⟩ } }) ∧
  (∀ s : State, exec (.serLast .bias) s = .next { s with nxt := { s.nxt with
    biasSer := ⟨shift s.cfg.biasBitOrder s.now.biasSer.sr, false, 0⟩ } })

/-- R83: SER.SHIFT, selected by 1x0, shifts and counts and changes nothing else, whatever the queue holds; while a
word is being sent the output is the extremal bit of the shift register and `done` is 0. -/
def Obligations.SerializerShifts : Prop :=
  (∀ s : State, exec (.serShift .cmd) s = .next { s with nxt := { s.nxt with cmdSer := { s.nxt.cmdSer with
    sr := shift s.cfg.cmdBitOrder s.now.cmdSer.sr, bitcnt := s.now.cmdSer.bitcnt + 1 } } }) ∧
  (∀ s : State, exec (.serShift .bias) s = .next { s with nxt := { s.nxt with biasSer := { s.nxt.biasSer with
    sr := shift s.cfg.biasBitOrder s.now.biasSer.sr, bitcnt := s.now.biasSer.bitcnt + 1 } } }) ∧
  (∀ x : SerInst, decodeSel ⟨.selSer x, 0b100⟩ = .ok (.serShift x) ∧
    decodeSel ⟨.selSer x, 0b110⟩ = .ok (.serShift x)) ∧
  (∀ s : State, s.sensorRst = false → s.now.cmdSer.haveWord = true →
    s.pins.cmdOut = ext s.cfg.cmdBitOrder s.now.cmdSer.sr ∧ s.signals.cmdDone = false) ∧
  (∀ s : State, s.sensorRst = false → s.now.biasSer.haveWord = true →
    s.pins.biasOut = ext s.cfg.biasBitOrder s.now.biasSer.sr ∧ s.signals.biasDone = false)

/-- R86: a word in an instance's queue is loaded in the first cycle the instance has no word, whatever the
FrameController does; with an empty queue nothing is loaded. -/
def Obligations.WordsAreNeverDelayed : Prop :=
  ∀ s t : State, SensorStep s t →
    (∀ w q, s.now.cmdSer.haveWord = false → s.now.cmdQ = w :: q →
      t.now.cmdSer = ⟨shift s.cfg.cmdBitOrder w, true, 1⟩ ∧ t.now.cmdQ = q ++ (Rtl.cmdPush s).toList) ∧
    (∀ w q, s.now.biasSer.haveWord = false → s.now.biasQ = w :: q →
      t.now.biasSer = ⟨shift s.cfg.biasBitOrder w, true, 1⟩ ∧ t.now.biasQ = q ++ (Rtl.biasPush s).toList) ∧
    (s.now.cmdSer.haveWord = false → s.now.cmdQ = [] → t.now.cmdSer = s.now.cmdSer) ∧
    (s.now.biasSer.haveWord = false → s.now.biasQ = [] → t.now.biasSer = s.now.biasSer)

/-- spec/42_serial_output.md section 4 and spec/30_encoding.md section 1 (decision D14): each serial line sends the
words of its queue bit after bit in the configured order with no gap and carries 0 when nothing is pending; a
word pushed in a cycle is sent after those before it; `done` says that nothing is pending. -/
def Obligations.SerialLinesSendEveryBit : Prop :=
  (∀ s : State, s.Inv → s.sensorRst = false →
    let cmd := pendingBits s.cfg.cmdBitOrder s.now.cmdSer s.now.cmdQ
    let bias := pendingBits s.cfg.biasBitOrder s.now.biasSer s.now.biasQ
    s.pins.cmdOut = cmd.headD false ∧ (s.signals.cmdDone = true ↔ cmd = []) ∧
    s.pins.biasOut = bias.headD false ∧ (s.signals.biasDone = true ↔ bias = [])) ∧
  ∀ s t : State, s.Inv → SensorStep s t →
    pendingBits s.cfg.cmdBitOrder t.now.cmdSer t.now.cmdQ =
      (pendingBits s.cfg.cmdBitOrder s.now.cmdSer s.now.cmdQ).tail
        ++ (Rtl.cmdPush s).toList.flatMap (wordBits s.cfg.cmdBitOrder) ∧
    pendingBits s.cfg.biasBitOrder t.now.biasSer t.now.biasQ =
      (pendingBits s.cfg.biasBitOrder s.now.biasSer s.now.biasQ).tail
        ++ (Rtl.biasPush s).toList.flatMap (wordBits s.cfg.biasBitOrder)

/-! ### SampleDeserializer -/

/-- R89: DES.CLR, selected by 0x, zeroes the accumulators and `dcnt` and touches nothing else, so an emission goes
on; it is the capture operation of every sensor cycle outside ReadLine. -/
def Obligations.ClearDiscardsTheAccumulation : Prop :=
  (∀ s : State, exec .desClr s = .next { s with nxt := { s.nxt with
    des := { s.nxt.des with accE := 0, accO := 0, dcnt := 0 } } }) ∧
  decodeSel ⟨.selDes, 0b00⟩ = .ok .desClr ∧ decodeSel ⟨.selDes, 0b01⟩ = .ok .desClr ∧
  ∀ s : State, decodeSel (selDes s) = .ok .desClr ↔ s.now.frame.state ≠ Fc.readLine

/-- spec/43_sample_deserializer.md section 2 (decisions D15, D17): DES.ACC takes a bit of each lane at the low end;
DES.CAP latches the reversed accumulators with the 14th bits, sets `have_data` and counts an overrun when the
old pair is still pending. -/
def Obligations.AccumulateAndCapture : Prop :=
  (∀ s : State, exec .desAcc s = .next { s with nxt := { s.nxt with des := { s.nxt.des with
    accE := s.now.des.accE <<< 1 ||| BitVec.setWidth 14 (BitVec.ofBool s.draw.laneE)
    accO := s.now.des.accO <<< 1 ||| BitVec.setWidth 14 (BitVec.ofBool s.draw.laneO)
    dcnt := s.now.des.dcnt + 1 } } }) ∧
  (∀ s : State, exec .desCap s = .next { s with nxt := { s.nxt with
    des := { s.nxt.des with
      outE := rev14 (s.now.des.accE <<< 1 ||| BitVec.setWidth 14 (BitVec.ofBool s.draw.laneE))
      outO := rev14 (s.now.des.accO <<< 1 ||| BitVec.setWidth 14 (BitVec.ofBool s.draw.laneO))
      accE := 0, accO := 0, dcnt := 0, haveData := true }
    overrunCount := if s.now.des.haveData && !(s.bwRdy && s.now.des.emitSt == .oddHigh)
      then s.now.overrunCount + 1 else s.nxt.overrunCount } })

/-- spec/20_memory.md section 4 (capture periods), spec/43_sample_deserializer.md section 2 (decision D15: the 14th
bit is captured in its own cycle, the first to arrive is bit 0) and spec/20_memory.md section 3 (the spec's
inference on the lane order): a capture period starts with the first cycle of `latch_en` and anew after every
14th: outside, the accumulation is empty; inside, each cycle appends the lanes' bits, and the 14th bit completes
the pair, whose bits are those of its period in the order they arrived. -/
def Obligations.CapturePeriods : Prop :=
  ∀ s t : State, s.Inv → SensorStep s t →
    (s.now.latchEn = false → t.now.des.dcnt = 0 ∧ t.now.des.accE = 0 ∧ t.now.des.accO = 0 ∧
      t.now.des.outE = s.now.des.outE ∧ t.now.des.outO = s.now.des.outO) ∧
    (s.now.latchEn = true → t.now.des.dcnt = (s.now.des.dcnt + 1) % 14) ∧
    (s.now.latchEn = true → s.now.des.dcnt < 13 →
      arrived t.now.des.accE t.now.des.dcnt = arrived s.now.des.accE s.now.des.dcnt ++ [s.draw.laneE] ∧
      arrived t.now.des.accO t.now.des.dcnt = arrived s.now.des.accO s.now.des.dcnt ++ [s.draw.laneO] ∧
      t.now.des.outE = s.now.des.outE ∧ t.now.des.outO = s.now.des.outO) ∧
    (s.now.latchEn = true → s.now.des.dcnt = 13 → t.now.des.haveData = true ∧
      (List.range 14).map (fun i => t.now.des.outE.getLsbD i)
        = arrived s.now.des.accE 13 ++ [s.draw.laneE] ∧
      (List.range 14).map (fun i => t.now.des.outO.getLsbD i)
        = arrived s.now.des.accO 13 ++ [s.draw.laneO])

/-- spec/43_sample_deserializer.md section 4 (the spec's inference from its capture rules): `dcnt` follows the line
from every state in which it does, and a pair is completed exactly in each 14th cycle of a line. -/
def Obligations.CaptureFollowsTheLine : Prop :=
  (∀ s t : State, s.Inv → s.now.Aligned s.cfg → step s = .next t → t.now.Aligned t.cfg) ∧
  ∀ s : State, s.Inv → s.now.Aligned s.cfg →
    (s.now.captures = true ↔ s.now.frame.state = Fc.readLine ∧ s.now.frame.lineCnt % 14 = 13)

/-- R128: when `latch_en` is 0 up to 13 bits of each lane are discarded, and nothing else shows it: no byte beyond
the pending pair's, no count; after a line it is L mod 14 bits, 7 when COLS is odd and none when it is even. -/
def Obligations.MisalignedCaptureIsSilent : Prop :=
  (∀ s t : State, s.Inv → SensorStep s t → s.now.latchEn = false →
    s.now.des.dcnt ≤ 13 ∧ t.now.des.accE = 0 ∧ t.now.des.accO = 0 ∧ t.now.des.dcnt = 0 ∧
    t.now.des.outE = s.now.des.outE ∧ t.now.des.outO = s.now.des.outO ∧
    t.now.overrunCount = s.now.overrunCount ∧ (s.now.des.haveData = false → t.now.bridgeQ = s.now.bridgeQ)) ∧
  (∀ s : State, s.now.Aligned s.cfg → s.now.frame.state = Fc.waitLine ∨ s.now.frame.state = Fc.interFrame →
    s.now.frame.lineCnt = 0 → s.now.latchEn = false ∧ s.now.des.dcnt = s.cfg.lineCycles % 14) ∧
  ∀ p : Params, p.lineCycles % 14 = if p.cols % 2 = 1 then 7 else 0

/-- spec/43_sample_deserializer.md section 3 (decision D16 for the zero bits, D17 for the clear): the operations that
send a high byte, and EMIT.IDLE; ODD_HI clears `have_data` unless a capture of the same cycle sets it. -/
def Obligations.EmitHighBytesAndIdle : Prop :=
  (∀ s : State, exec .emitIdle s = .next s) ∧
  (∀ s : State, s.now.bridgeQ.length < s.cfg.bridgeDepth → exec .emitEvenHi s = .next { s with nxt := { s.nxt with
    bridgeQ := s.nxt.bridgeQ ++ [(s.now.des.outE.extractLsb' 8 6).zeroExtend 8]
    des := { s.nxt.des with emitSt := .oddLow } } }) ∧
  (∀ s : State, s.now.bridgeQ.length < s.cfg.bridgeDepth → exec .emitOddHi s = .next { s with nxt := { s.nxt with
    bridgeQ := s.nxt.bridgeQ ++ [(s.now.des.outO.extractLsb' 8 6).zeroExtend 8]
    des := { s.nxt.des with
      emitSt := .evenLow
      haveData := if s.now.latchEn && s.now.des.dcnt == 13 then s.nxt.des.haveData else false } } })

/-- R95, R97: EMIT.EVEN_LO (1100) and EMIT.ODD_LO (1110) push bits 7:0 of the latched sample and advance
`emit_st`; `bw_rdy` implies the space they need. -/
def Obligations.EmitLowBytes : Prop :=
  (∀ s : State, s.now.bridgeQ.length < s.cfg.bridgeDepth → exec .emitEvenLo s = .next { s with nxt := { s.nxt with
    bridgeQ := s.nxt.bridgeQ ++ [s.now.des.outE.extractLsb' 0 8]
    des := { s.nxt.des with emitSt := .evenHigh } } }) ∧
  (∀ s : State, s.now.bridgeQ.length < s.cfg.bridgeDepth → exec .emitOddLo s = .next { s with nxt := { s.nxt with
    bridgeQ := s.nxt.bridgeQ ++ [s.now.des.outO.extractLsb' 0 8]
    des := { s.nxt.des with emitSt := .oddHigh } } }) ∧
  decodeSel ⟨.selEmit, 0b1100⟩ = .ok .emitEvenLo ∧ decodeSel ⟨.selEmit, 0b1110⟩ = .ok .emitOddLo ∧
  ∀ s : State, s.bwRdy = true → s.now.bridgeQ.length < s.cfg.bridgeDepth

/-- R94: EMIT.STALL, selected by 10xx, changes nothing; a pending pair waits as long as `bw_rdy` is 0, no byte is
pushed or dropped, and a capture during the stall is an overrun. -/
def Obligations.StalledEmitterWaits : Prop :=
  (∀ s : State, exec .emitStall s = .next s) ∧
  (∀ sel ∈ [(8 : Byte), 9, 10, 11], decodeSel ⟨.selEmit, sel⟩ = .ok .emitStall) ∧
  ∀ s t : State, SensorStep s t → s.now.des.haveData = true → s.bwRdy = false →
    t.now.bridgeQ = s.now.bridgeQ ∧ t.now.des.haveData = true ∧ t.now.des.emitSt = s.now.des.emitSt ∧
    (s.now.captures = true → t.now.overrunCount = s.now.overrunCount + 1) ∧
    (s.now.captures = false → t.now.des.outE = s.now.des.outE ∧ t.now.des.outO = s.now.des.outO ∧
      t.now.overrunCount = s.now.overrunCount)

/-- R37: a pair leaves as even low, even high, odd low, odd high: each sensor cycle with `bw_rdy` emits the next of
the four bytes and no other cycle does; the low byte is bits 7:0, the high byte the remaining six with two zeros. -/
def Obligations.RecordsLeaveInOrder : Prop :=
  (∀ s t : State, SensorStep s t →
    t.now.bridgeQ = s.now.bridgeQ ++ (if s.bwRdy then s.now.des.pendingBytes.take 1 else []) ∧
    (s.now.captures = false →
      t.now.des.pendingBytes = if s.bwRdy then s.now.des.pendingBytes.tail else s.now.des.pendingBytes)) ∧
  (∀ d : Deserializer, d.haveData = true → d.emitSt = .evenLow →
    d.pendingBytes = [lowByte d.outE, highByte d.outE, lowByte d.outO, highByte d.outO]) ∧
  ∀ v : Sample, (lowByte v).toNat + 256 * (highByte v).toNat = v.toNat ∧ (highByte v).toNat < 64

/-- spec/43_sample_deserializer.md section 2 (decision D17): a capture counts as an overrun exactly when bytes of the
old pair remain after the emission of its cycle; the new pair replaces the old one, and the emission goes on from
the byte it had reached, with the new pair's bytes. -/
def Obligations.OverrunTearsTheRecord : Prop :=
  ∀ s t : State, SensorStep s t → s.now.captures = true →
    (let left := if s.bwRdy then s.now.des.pendingBytes.tail else s.now.des.pendingBytes
     t.now.overrunCount = if left = [] then s.now.overrunCount else s.now.overrunCount + 1) ∧
    t.now.des.haveData = true ∧
    t.now.des.emitSt.code = (if s.now.des.haveData && s.bwRdy then s.now.des.emitSt.code + 1
      else s.now.des.emitSt.code) ∧
    t.now.des.outE = rev14 (accumulate s.now.des.accE s.draw.laneE) ∧
    t.now.des.outO = rev14 (accumulate s.now.des.accO s.draw.laneO) ∧
    t.now.des.pendingBytes =
      (record (rev14 (accumulate s.now.des.accE s.draw.laneE)) (rev14 (accumulate s.now.des.accO s.draw.laneO))).drop
        t.now.des.emitSt.code.toNat

/-- spec/43_sample_deserializer.md section 4 and spec/70_reset_and_hazards.md section 3 (the spec's inferences on
overrun freedom): an emission that has kept ahead keeps ahead in a sensor cycle with `bw_rdy`, and while it does
there is no overrun. Over the 14 sensor cycles of a line after a capture, under any interleaving with host cycles,
the next capture comes in the 14th and is an overrun exactly when `bw_rdy` was 1 in fewer of them than bytes were
pending (four after a capture that was no overrun); with an exact `bw_rdy` it is none when the bridging queue has
room for the pending bytes at the start. -/
def Obligations.NoOverrunWithSpace : Prop :=
  (∀ s t : State, s.Inv → SensorStep s t → s.now.des.Ahead → s.bwRdy = true →
    t.now.des.Ahead ∧ t.now.overrunCount = s.now.overrunCount) ∧
  (∀ (s t : State) (us : List State), LineRun s us t → us.length = 14 → s.now.des.dcnt = 0 →
    (∀ u ∈ us, u.now.captures = true ↔ u.now.des.dcnt = 13) ∧ (us.map (·.now.des.dcnt)) = List.range 14 ∧
    t.now.overrunCount =
      if s.now.des.pendingBytes.length ≤ us.countP (·.bwRdy) then s.now.overrunCount
      else s.now.overrunCount + 1) ∧
  (∀ d : Deserializer, d.haveData = true → d.emitSt = .evenLow → d.pendingBytes.length = 4) ∧
  ∀ (s t : State) (us : List State), LineRun s us t → us.length = 14 → s.now.des.dcnt = 0 →
    (∀ u ∈ us, u.draw.bwSees = true) →
    s.now.bridgeQ.length + s.now.des.pendingBytes.length ≤ s.cfg.bridgeDepth →
    t.now.overrunCount = s.now.overrunCount

/-- spec/43_sample_deserializer.md section 1 and spec/60_exceptions.md section 6 (decisions D26, D29): outside a
sensor cycle of a line the lanes have no effect at all, and the debug bus never has any. -/
def Obligations.LanesMatterOnlyInReadLine : Prop :=
  (∀ (s : State) (d : Draw) (ds : List Draw) (e o : Bool), s.script = d :: ds →
    s.now.latchEn = false ∨ s.sensorRst = true ∨ d.turn ≠ .sensor →
    step { s with script := { d with laneE := e, laneO := o } :: ds } = step s) ∧
  ∀ (s : State) (d : Draw) (ds : List Draw) (b : Byte), s.script = d :: ds →
    step { s with script := { d with debug := b } :: ds } = step s

/-! ### FrameController and bias injection -/

/-- R104: FC.POWERUP, selected by 0000, waits for `ready` with `latch_en` 0 and leaves for Init in the first cycle
with BoostEnabled, which is cycle P; Powerup is never re-entered except by reset. -/
def Obligations.PowerupWaitsForReady : Prop :=
  (∀ s : State, s.now.ready = true → exec .fcPowerup s = .next { s with nxt := { s.nxt with
    frame := { s.nxt.frame with state := Fc.init, initCnt := 0 } } }) ∧
  (∀ s : State, s.now.ready = false → exec .fcPowerup s = .next s) ∧
  decodeSel ⟨.selFc, 0b0000⟩ = .ok .fcPowerup ∧
  (∀ r : Regs, r.frame.state = Fc.powerup → r.latchEn = false) ∧
  (∀ s t : State, SensorStep s t → s.now.frame.state = Fc.powerup →
    (s.now.power.state = .boostEnabled → t.now.frame.state = Fc.init ∧ t.now.frame.initCnt = 0) ∧
    (s.now.power.state ≠ .boostEnabled → t.now.frame = s.now.frame)) ∧
  (∀ s t : State, s.Inv → s.now.OnTime s.cfg → SensorStep s t → s.now.frame.state = Fc.powerup →
    (t.now.frame.state = Fc.init ↔ s.now.cycle = s.cfg.readyCycle)) ∧
  ∀ s t : State, step s = .next t → s.draw.turn ≠ .reset → s.Running → s.now.frame.state ≠ Fc.powerup →
    t.now.frame.state ≠ Fc.powerup

/-- spec/44_frame_controller.md section 2 (decision D6): FC.INIT lasts INIT_CYCLES cycles, FC.INTERFRAME L + G. -/
def Obligations.InitAndInterFrameCount : Prop :=
  ∀ s : State,
    exec .fcInit s = .next { s with nxt := { s.nxt with frame :=
      if s.now.frame.initCnt + 1 = s.cfg.initCycles then { s.nxt.frame with state := Fc.sendCmd, initCnt := 0 }
      else { s.nxt.frame with initCnt := s.now.frame.initCnt + 1 } } } ∧
    exec .fcInterframe s = .next { s with nxt := { s.nxt with frame :=
      if s.now.frame.lineCnt + 1 = 7 * s.cfg.cols + s.cfg.lineStartOffset then
        { s.nxt.frame with state := Fc.init, lineCnt := 0, initCnt := 0 }
      else { s.nxt.frame with lineCnt := s.now.frame.lineCnt + 1 } } }

/-- spec/44_frame_controller.md section 2 (decisions D8, D13): FC.SENDCMD pushes CMD_WORDS[cmd_idx] taken whole, or
raises CMD_QUEUE_OVERFLOW on a full queue; FC.SENDCMD_ADVANCE goes to the next word or, after the twelfth, to
WaitFrameStart. -/
def Obligations.CommandWordsArePushed : Prop :=
  (∀ s : State, s.cfg.Valid → s.now.cmdQ.length < s.cfg.cmdQDepth → ∃ w : CmdWord,
    s.cfg.cmdWords[s.now.frame.cmdIdx.val]? = some w.toNat ∧
    exec .fcSendcmd s = .next { s with nxt := { s.nxt with
      cmdQ := s.nxt.cmdQ ++ [w], frame := { s.nxt.frame with state := Fc.sendCmdStrobe } } }) ∧
  (∀ s : State, s.cfg.Valid → s.cfg.cmdQDepth ≤ s.now.cmdQ.length → s.nxt.fault = none →
    exec .fcSendcmd s = .next { s with nxt := { s.nxt with
      fault := some ⟨.cmdQueueOverflow, s.now.cycle, s.now.frame.cmdIdx⟩ } }) ∧
  ∀ s : State, exec .fcSendcmdAdvance s = .next { s with nxt := { s.nxt with frame :=
    if s.now.frame.cmdIdx.val = 11 then { s.nxt.frame with state := Fc.waitFrameStart, lineCnt := 0 }
    else { s.nxt.frame with cmdIdx := s.now.frame.cmdIdx + 1, state := Fc.sendCmd } } }

/-- R107: FC.SENDCMD_STROBE, selected by 0011, is always one cycle, pushes nothing and goes to SendCmdAdvance. -/
def Obligations.StrobeIsOneCycle : Prop :=
  (∀ s : State, exec .fcSendcmdStrobe s = .next { s with nxt := { s.nxt with
    frame := { s.nxt.frame with state := Fc.sendCmdAdvance } } }) ∧
  decodeSel ⟨.selFc, 0b0011⟩ = .ok .fcSendcmdStrobe ∧
  (∀ s t : State, SensorStep s t → s.now.frame.state = Fc.sendCmd → t.now.frame.state = Fc.sendCmdStrobe) ∧
  (∀ s t : State, SensorStep s t → s.now.frame.state = Fc.sendCmdStrobe →
    t.now.frame.state = Fc.sendCmdAdvance ∧ ∃ popped, s.now.cmdQ = popped ++ t.now.cmdQ)

/-- spec/44_frame_controller.md sections 2 and 3 (decisions D9, D10, D11): the two waits before a line count, go to
ReadLine in their last cycle and raise the bias trigger BIAS_TO_LATCH cycles before; the trigger starts a burst,
or raises BIAS_RETRIGGER when one is active; FC.WAIT_FRAME_START holds until `cmd_done`. That these two operations
themselves write the bias registers and raise BIAS_RETRIGGER, rather than another one of the cycle, is the model's
deduction (log entry 14). -/
def Obligations.WaitsCountAndTrigger : Prop :=
  (∀ s : State, s.now.cmdDone = false → exec .fcWaitFrameStart s = .next s) ∧
  ∀ (s : State) (i : Instr) (len : Nat),
    (i = .fcWaitFrameStart ∧ len = s.cfg.cmdToLineStart ∧ s.now.cmdDone = true) ∨
      (i = .fcWaitline ∧ len = s.cfg.lineStartOffset) →
    let f : Frame := if s.now.frame.lineCnt + 1 = len then { s.nxt.frame with state := Fc.readLine, lineCnt := 0 }
      else { s.nxt.frame with lineCnt := s.now.frame.lineCnt + 1 }
    (s.now.frame.lineCnt + s.cfg.biasToLatch + 1 ≠ len →
      exec i s = .next { s with nxt := { s.nxt with frame := f } }) ∧
    (s.now.frame.lineCnt + s.cfg.biasToLatch + 1 = len → s.now.inj.active = false →
      exec i s = .next { s with nxt := { s.nxt with frame := f, inj := ⟨true, false, 0⟩ } }) ∧
    (s.now.frame.lineCnt + s.cfg.biasToLatch + 1 = len → s.now.inj.active = true → s.nxt.fault = none →
      exec i s = .next { s with nxt := { s.nxt with
        frame := f, fault := some ⟨.biasRetrigger, s.now.cycle, s.now.inj.cnt⟩ } })

/-- spec/44_frame_controller.md section 2 (decision D7): FC.READLINE lasts 7 x COLS cycles; the row test uses the
value before the increment, so the last of ROWS lines ends the frame. -/
def Obligations.ReadLineCountsRows : Prop :=
  ∀ s : State, exec .fcReadline s = .next { s with nxt := { s.nxt with frame :=
    if s.now.frame.lineCnt + 1 = 7 * s.cfg.cols then
      if s.now.frame.rowCnt + 1 = s.cfg.rows then
        { s.nxt.frame with lineCnt := 0, rowCnt := 0, cmdIdx := 0, state := Fc.interFrame }
      else { s.nxt.frame with lineCnt := 0, rowCnt := s.now.frame.rowCnt + 1, state := Fc.waitLine }
    else { s.nxt.frame with lineCnt := s.now.frame.lineCnt + 1 } } }

/-- R113: BIAS.IDLE, selected by 0x, changes no register, and no burst starts but by the trigger; whenever
`bias_active` is 0, so are `bias_phase` and `bias_cnt` (in every state the invariant admits, and so in every state
a step from such a state leads to). -/
def Obligations.BiasIdleChangesNothing : Prop :=
  (∀ s : State, exec .biasIdle s = .next s) ∧
  decodeSel ⟨.selBias, 0b00⟩ = .ok .biasIdle ∧ decodeSel ⟨.selBias, 0b01⟩ = .ok .biasIdle ∧
  (∀ s t : State, SensorStep s t → s.now.inj.active = false → s.biasTrigger = false →
    t.now.inj = s.now.inj) ∧
  ∀ s t : State, s.Inv → step s = .next t → t.now.inj.active = false →
    t.now.inj.phase = false ∧ t.now.inj.cnt = 0

/-- spec/44_frame_controller.md section 3 (decisions D11, D13): BIAS.WRITE pushes BIAS_VALUE taken whole, or raises
BIAS_QUEUE_OVERFLOW on a full queue; BIAS.STROBE counts the writes and ends the burst after BIAS_WRITES. -/
def Obligations.BurstsWriteAndStrobe : Prop :=
  (∀ s : State, s.cfg.Valid → s.now.biasQ.length < s.cfg.biasQDepth →
    ∃ b : BiasWord, b.toNat = s.cfg.biasValue ∧ exec .biasWrite s = .next { s with nxt := { s.nxt with
      biasQ := s.nxt.biasQ ++ [b], inj := { s.nxt.inj with phase := true } } }) ∧
  (∀ s : State, s.cfg.biasQDepth ≤ s.now.biasQ.length → s.nxt.fault = none →
    exec .biasWrite s = .next { s with nxt := { s.nxt with
      fault := some ⟨.biasQueueOverflow, s.now.cycle, s.now.inj.cnt⟩ } }) ∧
  ∀ s : State, exec .biasStrobe s = .next { s with nxt := { s.nxt with inj :=
    if s.now.inj.cnt + 1 = s.cfg.biasWrites then ⟨false, false, 0⟩
    else { s.nxt.inj with phase := false, cnt := s.now.inj.cnt + 1 } } }

/-- spec/44_frame_controller.md section 4 (no cancellation): the FrameController, the power sequence, the bias
injection and the serializers do not depend on the lanes, the bridge or the host, a host cycle does not change
them, and the FrameController never stands still but to wait for `ready` or for `cmd_done`. -/
def Obligations.ControlIgnoresHostAndLanes : Prop :=
  (∀ s s' t t' : State, s.SensorCycle → s'.SensorCycle → s'.cfg = s.cfg → s.now.SameControl s'.now →
    step s = .next t → step s' = .next t' → t.now.SameControl t'.now) ∧
  (∀ s t : State, step s = .next t → s.draw.turn = .host → s.now.SameControl t.now) ∧
  ∀ s t : State, SensorStep s t → ¬ (s.now.frame.state = Fc.powerup ∧ s.now.ready = false) →
    ¬ (s.now.frame.state = Fc.waitFrameStart ∧ s.now.cmdDone = false) → t.now.frame ≠ s.now.frame

/-- spec/44_frame_controller.md section 4 and spec/70_reset_and_hazards.md section 3 (the spec's inference on the
command queue depth): the command stream keeps its schedule from every state that keeps it, and with
CMD_Q_DEPTH >= 9 no push meets a full queue. -/
def Obligations.CommandScheduleIsKept : Prop :=
  ∀ s t : State, s.Inv → s.now.CmdSchedule → step s = .next t →
    t.now.CmdSchedule ∧
    (9 ≤ s.cfg.cmdQDepth → s.now.fault = none → ∀ f, t.now.fault = some f → f.code ≠ .cmdQueueOverflow)

/-- spec/70_reset_and_hazards.md section 3 (the spec's inference on the command queue depth): with CMD_Q_DEPTH <= 8
no fault-free run from the reset values reaches WaitFrameStart or reads a line, under any inputs. -/
def Obligations.ShallowCommandQueueFaults : Prop :=
  ∀ s t : State, s.cfg.Valid → s.cfg.cmdQDepth ≤ 8 → s.now = Regs.reset → FaultFreeRun s t →
    t.now.frame.state ≠ Fc.waitFrameStart ∧ t.now.frame.state ≠ Fc.readLine

/-- spec/70_reset_and_hazards.md section 3 (the spec's inference on retriggering): with 2n + 1 <= L + G, or with
ROWS = 1 and 2n + 1 <= T, an active burst has the age its position in the frame gives, from every state in which
it has, and no trigger meets an active burst. -/
def Obligations.BurstsKeepTheirAge : Prop :=
  (∀ s t : State, s.Inv → s.now.CmdSchedule → s.now.BiasSchedule s.cfg →
    2 * s.cfg.biasWrites + 1 ≤ s.cfg.lineCycles + s.cfg.lineStartOffset → step s = .next t →
    t.now.BiasSchedule t.cfg ∧
    (s.now.fault = none → ∀ f, t.now.fault = some f → f.code ≠ .biasRetrigger)) ∧
  ∀ s t : State, s.Inv → s.now.CmdSchedule → s.now.BiasScheduleOneRow s.cfg → s.cfg.rows = 1 →
    2 * s.cfg.biasWrites + 1 ≤ s.cfg.framePeriod → step s = .next t →
    t.now.BiasScheduleOneRow t.cfg ∧
    (s.now.fault = none → ∀ f, t.now.fault = some f → f.code ≠ .biasRetrigger)

/-- spec/70_reset_and_hazards.md section 3 (the spec's inference on the bias queue depth): with 7n <= L + G the bursts
and the bias stream keep their exact positions, and a BIAS_Q_DEPTH above the largest level at a push,
n - 2 - floor((2n - 4)/7) for n >= 2 and 0 for n = 1, never overflows. -/
def Obligations.BiasStreamIsKept : Prop :=
  ∀ s t : State, s.Inv → s.now.CmdSchedule → s.now.BiasStream s.cfg →
    7 * s.cfg.biasWrites ≤ s.cfg.lineCycles + s.cfg.lineStartOffset → step s = .next t →
    t.now.BiasStream t.cfg ∧
    ((if s.cfg.biasWrites = 1 then 0 < s.cfg.biasQDepth
      else s.cfg.biasWrites < s.cfg.biasQDepth + 2 + (2 * s.cfg.biasWrites - 4) / 7) →
      s.now.fault = none → ∀ f, t.now.fault = some f → f.code ≠ .biasQueueOverflow)

/-- spec/44_frame_controller.md section 4 and spec/41_power_sequencer.md section 3 (the timeline, the spec's
inference): from every state that is on time, every step leads to one: `ready` rises at P, Init starts at P + 1 and
frames follow each other with period T, whatever the host and the lanes do. -/
def Obligations.RunStaysOnTime : Prop :=
  ∀ s t : State, s.Inv → s.now.CmdSchedule → s.now.OnTime s.cfg → step s = .next t → t.now.OnTime t.cfg

/-- spec/44_frame_controller.md section 4 (the timeline, the spec's inference): what happens at each position of a
frame: line k is read in the L cycles from its start, its bias trigger is B + 1 cycles earlier, word k is pushed
3k cycles after Init ends, and `cmd_done` is 0 exactly in the 168 cycles after the first push. -/
def Obligations.FrameEventsByPosition : Prop :=
  ∀ s : State, s.cfg.Valid → s.Inv → s.now.CmdSchedule → s.now.frame.state ≠ Fc.powerup →
    let p := s.now.framePos s.cfg
    (s.now.latchEn = true ↔
      ∃ k < s.cfg.rows, s.cfg.lineStart k ≤ p ∧ p < s.cfg.lineStart k + s.cfg.lineCycles) ∧
    (s.biasTrigger = true ↔ ∃ k < s.cfg.rows, p + s.cfg.biasToLatch + 1 = s.cfg.lineStart k) ∧
    (∀ w, Rtl.cmdPush s = some w ↔ ∃ k < 12, p = s.cfg.initCycles + 3 * k ∧ s.cfg.cmdWord? k = some w) ∧
    (s.now.cmdDone = true ↔ p ≤ s.cfg.initCycles ∨ s.cfg.initCycles + 169 ≤ p)

/-- spec/44_frame_controller.md section 4 and spec/70_reset_and_hazards.md section 3 (the spec's inferences): the
latencies of the first frame, by the number of the sensor cycle. `ready`, and with it the pin `en_boost`, is 1 from
cycle P on; the line `cmd_out` is idle up to cycle P + I + 1 and carries the first bit of the first word, loaded in
that cycle, in cycle P + I + 2; `cmd_done` is 0 in cycle P + I + 169 and 1 from the next one on, and N cycles after that one line 0 starts. The
table of latencies gives I + 1 for `ready` to the first bit where the timeline gives I + 2: the model follows the
timeline (DEDUCED, log entry 18). -/
def Obligations.LatenciesOfTheFirstFrame : Prop :=
  ∀ s : State, s.cfg.Valid → s.Inv → s.Running → s.now.CmdSchedule → s.now.OnTime s.cfg →
    let first := s.cfg.readyCycle + s.cfg.initCycles + 2
    let done := s.cfg.readyCycle + s.cfg.initCycles + 170
    (s.signals.ready = true ↔ s.cfg.readyCycle ≤ s.now.cycle) ∧ s.pins.enBoost = s.signals.ready ∧
    (s.now.cycle < first → s.signals.cmdDone = true ∧ s.pins.cmdOut = false) ∧
    (s.now.cycle = first → ∃ w q, s.now.cmdSer.haveWord = false ∧ s.now.cmdQ = w :: q ∧
      s.signals.cmdDone = false ∧ s.pins.cmdOut = ext s.cfg.cmdBitOrder w) ∧
    (first ≤ s.now.cycle → s.now.cycle < done → s.signals.cmdDone = false) ∧
    (done ≤ s.now.cycle → s.now.cycle < done + s.cfg.cmdToLineStart →
      s.signals.cmdDone = true ∧ s.signals.latchEn = false) ∧
    (s.now.cycle = done + s.cfg.cmdToLineStart →
      s.signals.latchEn = true ∧ s.now.frame.lineCnt = 0 ∧ s.now.frame.rowCnt = 0)

/-! ### DomainBridge -/

/-- R122: HOST.IDLE, selected by 00, changes no register; it is performed when the host does not see a byte or does
not accept one. -/
def Obligations.HostIdleChangesNothing : Prop :=
  (∀ s : State, exec .hostIdle s = .next s) ∧ decodeSel ⟨.selHost, 0b00⟩ = .ok .hostIdle ∧
  (∀ s : State, s.sensorRst = false → (decodeSel (selHost s) = .ok .hostIdle ↔
    s.brRdy = false ∨ s.draw.hostReady = false)) ∧
  ∀ s : State, s.now.bridgeQ = [] → s.brRdy = false

/-- R123: HOST.XFER, selected by 01, pops the oldest byte into the host stream and changes nothing else; a host
cycle moves at most one byte. -/
def Obligations.HostTransfersTheOldest : Prop :=
  (∀ (s : State) (b : Byte) (q : List Byte), s.now.bridgeQ = b :: q →
    exec .hostXfer s = .next { s with nxt := { s.nxt with
      bridgeQ := s.nxt.bridgeQ.tail, hostStream := s.nxt.hostStream ++ [b] } }) ∧
  decodeSel ⟨.selHost, 0b01⟩ = .ok .hostXfer ∧
  (∀ s : State, s.sensorRst = false → (decodeSel (selHost s) = .ok .hostXfer ↔
    s.brRdy = true ∧ s.draw.hostReady = true)) ∧
  (∀ s : State, s.brRdy = true → s.now.bridgeQ ≠ []) ∧
  ∀ s t : State, step s = .next t → s.draw.turn = .host →
    t.now.hostStream = s.now.hostStream ∨ ∃ b, t.now.hostStream = s.now.hostStream ++ [b]

/-- spec/45_domain_bridge.md section 2 (decision D20): HOST.RESET_HOLD flushes the bridging queue and counts; a host
cycle performs it exactly while `rst_cnt` is below RST_HOLD, and then no byte reaches the host stream. -/
def Obligations.HoldFlushesAndCounts : Prop :=
  (∀ s : State, exec .hostResetHold s = .next { s with nxt := { s.nxt with
    bridgeQ := [], rstCnt := s.now.rstCnt + 1 } }) ∧
  ∀ s t : State, step s = .next t → s.draw.turn = .host →
    (s.now.rstCnt < s.cfg.rstHold → t.now = { s.now with bridgeQ := [], rstCnt := s.now.rstCnt + 1 }) ∧
    (s.cfg.rstHold ≤ s.now.rstCnt → t.now.rstCnt = s.now.rstCnt)

/-- R46: every queue delivers what was pushed, in order, each entry exactly once: in a sensor cycle what a
serializer takes and what stays is what was there and what was pushed; in a host cycle the stream and the bridging
queue together hold the same bytes in the same order. -/
def Obligations.QueuesDeliverInOrder : Prop :=
  (∀ s t : State, SensorStep s t →
    (if Rtl.loads s.now.cmdSer s.now.cmdQ then s.now.cmdQ.take 1 else []) ++ t.now.cmdQ
      = s.now.cmdQ ++ (Rtl.cmdPush s).toList ∧
    (if Rtl.loads s.now.biasSer s.now.biasQ then s.now.biasQ.take 1 else []) ++ t.now.biasQ
      = s.now.biasQ ++ (Rtl.biasPush s).toList ∧
    t.now.bridgeQ = s.now.bridgeQ ++ (Rtl.emitted s).toList ∧ t.now.hostStream = s.now.hostStream) ∧
  ∀ s t : State, step s = .next t → s.draw.turn = .host → s.Running →
    t.now.hostStream ++ t.now.bridgeQ = s.now.hostStream ++ s.now.bridgeQ ∧
    t.now.cmdQ = s.now.cmdQ ∧ t.now.biasQ = s.now.biasQ

/-- R17: the bridging queue is the only state both domains touch: a host cycle only removes from it and leaves the
sensor domain alone, a sensor cycle only appends to it and leaves the host domain alone; and neither reads the
other's registers (out of reset). -/
def Obligations.DomainsShareOnlyTheBridge : Prop :=
  (∀ s t : State, step s = .next t → s.draw.turn = .host →
    t.now = { s.now with
      bridgeQ := t.now.bridgeQ, rstCnt := t.now.rstCnt, hostStream := t.now.hostStream } ∧
    ∃ removed, s.now.bridgeQ = removed ++ t.now.bridgeQ) ∧
  (∀ s t : State, step s = .next t → s.draw.turn = .sensor →
    t.now.rstCnt = s.now.rstCnt ∧ t.now.hostStream = s.now.hostStream ∧
    ∃ added, t.now.bridgeQ = s.now.bridgeQ ++ added) ∧
  (∀ s s' t t' : State, step s = .next t → step s' = .next t' → s.draw.turn = .host → s'.draw = s.draw →
    s'.cfg = s.cfg → s'.now.bridgeQ = s.now.bridgeQ → s'.now.rstCnt = s.now.rstCnt →
    s'.now.hostStream = s.now.hostStream →
    t'.now.bridgeQ = t.now.bridgeQ ∧ t'.now.rstCnt = t.now.rstCnt ∧ t'.now.hostStream = t.now.hostStream) ∧
  ∀ (s s' t t' : State) (n : Nat) (h : List Byte), s.SensorCycle → s'.SensorCycle → s'.draw = s.draw →
    s'.cfg = s.cfg → s'.now = { s.now with rstCnt := n, hostStream := h } →
    step s = .next t → step s' = .next t' → t'.now = { t.now with rstCnt := n, hostStream := h }

/-! ### Faults, reset and the configuration -/

/-- spec/60_exceptions.md section 2 (decisions D24, D32, D35): the fault a sensor cycle records is the first in the
order ILLEGAL_STATE, BIAS_RETRIGGER, CMD_QUEUE_OVERFLOW, BIAS_QUEUE_OVERFLOW whose cause it meets, with the cycle
number and the value; a cycle that records one has no other effect; and only the system reset goes on. -/
def Obligations.FaultsArePrecise : Prop :=
  (∀ s t : State, s.SensorCycle → step s = .next t →
    t.now.fault = (if 9 ≤ s.now.frame.state.toNat then
        some ⟨.illegalState, s.now.cycle, s.now.frame.state.toNat⟩
      else if s.biasTrigger = true ∧ s.now.inj.active = true then
        some ⟨.biasRetrigger, s.now.cycle, s.now.inj.cnt⟩
      else if s.now.frame.state = Fc.sendCmd ∧ s.cfg.cmdQDepth ≤ s.now.cmdQ.length then
        some ⟨.cmdQueueOverflow, s.now.cycle, s.now.frame.cmdIdx⟩
      else if s.now.inj.active = true ∧ s.now.inj.phase = false ∧ s.cfg.biasQDepth ≤ s.now.biasQ.length then
        some ⟨.biasQueueOverflow, s.now.cycle, s.now.inj.cnt⟩
      else none) ∧
    (∀ f, t.now.fault = some f → t.now = { s.now with fault := some f } ∧ t.cfg = s.cfg)) ∧
  (∀ s t : State, step s = .next t → s.draw.turn ≠ .sensor ∨ s.sensorRst = true → t.now.fault = none) ∧
  ∀ (s : State) (f : FaultRecord), s.cfg.Valid → s.now.fault = some f →
    (s.draw.turn ≠ .reset → step s = .fault (.runEnded f.code)) ∧
    (s.draw.turn = .reset → ∃ t, step s = .next t ∧ t.now.fault = none)

/-- spec/00_scope.md section 4 and spec/60_exceptions.md section 2 (decision D3): the valid configurations are those
that meet every condition; of the others the first condition that fails is named, the ones before it hold. -/
def Obligations.ConfigurationsAreChecked : Prop :=
  ∀ p : Params,
    (p.Valid ↔ p.cmdWords.length = 12 ∧ (∀ w ∈ p.cmdWords, w < 2 ^ 14) ∧ p.biasValue < 2 ^ 7 ∧
      1 ≤ p.clkFreqHz ∧ 1 ≤ p.initCycles ∧ 2 ≤ p.cols ∧ 1 ≤ p.rows ∧ 1 ≤ p.cmdToLineStart ∧
      1 ≤ p.lineStartOffset ∧ 1 ≤ p.biasWrites ∧ p.biasToLatch + 1 ≤ p.cmdToLineStart ∧
      p.biasToLatch + 1 ≤ p.lineStartOffset ∧ 1 ≤ p.cmdQDepth ∧ 1 ≤ p.biasQDepth ∧ 1 ≤ p.bridgeDepth ∧
      1 ≤ p.rstHold) ∧
    ∀ c, p.firstFailed = some c → p.meets c = false ∧
      ∃ before after, ParamCheck.inOrder = before ++ c :: after ∧ ∀ d ∈ before, p.meets d = true

/-- spec/00_scope.md section 4 (decision D37) and spec/70_reset_and_hazards.md section 3 (the spec's inference on the
defaults): the defaults are BIAS_WRITES = COLS - 1, 338 and 363 for the spec's two sensors, and RST_HOLD = 7; putting
both into a valid configuration leaves it valid; and under every valid configuration with the first, 7n = L - 7, so
that 7n <= L + G, which BiasStreamIsKept assumes, and 2n + 1 <= L + G, which BurstsKeepTheirAge assumes, hold. -/
def Obligations.DefaultsMeetTheBurstConditions : Prop :=
  (∀ p : Params, p.Valid →
    ({ p with biasWrites := Config.defaultBiasWrites p.cols, rstHold := Config.defaultRstHold } : Params).Valid) ∧
  (∀ p : Params, p.Valid → p.biasWrites = Config.defaultBiasWrites p.cols →
    p.biasWrites + 1 = p.cols ∧ 7 * p.biasWrites + 7 = p.lineCycles ∧
    7 * p.biasWrites ≤ p.lineCycles + p.lineStartOffset ∧
    2 * p.biasWrites + 1 ≤ p.lineCycles + p.lineStartOffset) ∧
  Config.defaultBiasWrites 339 = 338 ∧ Config.defaultBiasWrites 364 = 363 ∧ Config.defaultRstHold = 7

/-- spec/10_state.md section 9: the configuration is a parameter of the step relation, `stepUnder`, which takes a
block to a block: it refuses an invalid configuration and otherwise does what a cycle under that configuration
does; the step in the host's form (log entry 1) is this relation at the configuration its argument stands under,
and the block that reset leaves is the same for every configuration. -/
def Obligations.ConfigurationIsAParameter : Prop :=
  (∀ (cfg : Params) (b : Block),
    (∀ c, cfg.firstFailed = some c → stepUnder cfg b = .refused (.paramInvalid c)) ∧
    (cfg.Valid → ∀ b', stepUnder cfg b = .next b' ↔ cycleUnlessEnded (b.under cfg) = .next (b'.under cfg)) ∧
    ∀ t, step (b.under cfg) = .next t ↔ ∃ b', stepUnder cfg b = .next b' ∧ t = b'.under cfg) ∧
  ∀ cfg : Params, (State.resetOf cfg).toBlock = Block.reset

/-- spec/10_state.md section 9 and spec/00_scope.md section 4 (decision D28; in the host's form of a step the
configuration travels with the block, log entry 1): no step changes the configuration, and MARKER_VARIANT has no
effect. -/
def Obligations.ConfigurationIsConstant : Prop :=
  (∀ s t : State, step s = .next t → t.cfg = s.cfg) ∧
  ∀ (s t : State) (b : Bool), step s = .next t →
    step { s with cfg := { s.cfg with markerVariant := b } }
      = .next { t with cfg := { t.cfg with markerVariant := b } }

/-- spec/70_reset_and_hazards.md section 1 (decisions D20, D21, D34): SENSOR.HELD puts every sensor-domain register
at its reset value and does nothing else; SYS.RESET puts all state there but the bytes the host has taken. -/
def Obligations.HeldAndReset : Prop :=
  (∀ s : State, exec .sensorHeld s = .next { s with nxt := { s.nxt with
    power := ⟨.init, 0⟩, frame := ⟨0, 0, 0, 0, 0⟩, inj := ⟨false, false, 0⟩, cmdSer := ⟨0, false, 0⟩
    biasSer := ⟨0, false, 0⟩, des := ⟨0, 0, 0, 0, 0, false, .evenLow⟩ } }) ∧
  (∀ s : State, exec .sysReset s = .next { s with nxt :=
    ⟨⟨.init, 0⟩, ⟨0, 0, 0, 0, 0⟩, ⟨false, false, 0⟩, ⟨0, false, 0⟩, ⟨0, false, 0⟩,
      ⟨0, 0, 0, 0, 0, false, .evenLow⟩, [], [], [], 0, s.nxt.hostStream, none, 0, 0⟩ }) ∧
  (∀ s t : State, step s = .next t → s.draw.turn = .reset →
    t.now = { Regs.reset with hostStream := s.now.hostStream }) ∧
  ∀ s t : State, step s = .next t → s.draw.turn = .sensor → s.sensorRst = true →
    t.now = { s.now with
      power := Power.reset, frame := Frame.reset, inj := Injector.reset, cmdSer := Serializer.reset 14
      biasSer := Serializer.reset 7, des := Deserializer.reset }

/-- spec/70_reset_and_hazards.md section 1 (decisions D12, D17, D20, D21, D24; the host stream and the cycle number are
log entries 10 and 11): what reset leaves, for every configuration, and the outputs of the first sensor cycle
after the hold. -/
def Obligations.ResetLeavesTheResetValues : Prop :=
  (∀ cfg : Params, (State.resetOf cfg).cfg = cfg ∧ (State.resetOf cfg).now =
    ⟨⟨.init, 0⟩, ⟨0, 0, 0, 0, 0⟩, ⟨false, false, 0⟩, ⟨0, false, 0⟩, ⟨0, false, 0⟩,
      ⟨0, 0, 0, 0, 0, false, .evenLow⟩, [], [], [], 0, [], none, 0, 0⟩) ∧
  ∀ s : State, s.sensorRst = false → s.now.SensorAtReset → s.now.cmdQ = [] → s.now.biasQ = [] →
    s.pins.en3v3 = false ∧ s.pins.en2v5 = false ∧ s.pins.enBoost = false ∧ s.signals.ready = false ∧
    s.pins.cmdOut = false ∧ s.pins.biasOut = false ∧ s.signals.cmdDone = true ∧ s.signals.biasDone = true ∧
    s.signals.latchEn = false

/-- The invariants of the statements above hold in every state right after reset, under every configuration
(spec/70_reset_and_hazards.md section 1; decision D21). -/
def Obligations.ResetMeetsTheInvariants : Prop :=
  ∀ cfg : Params, (State.resetOf cfg).Inv ∧ (State.resetOf cfg).now.CmdSchedule ∧
    (State.resetOf cfg).now.BiasSchedule cfg ∧ (State.resetOf cfg).now.BiasScheduleOneRow cfg ∧
    (State.resetOf cfg).now.BiasStream cfg ∧
    (State.resetOf cfg).now.OnTime cfg ∧ (State.resetOf cfg).now.Aligned cfg ∧
    (State.resetOf cfg).now.des.Ahead

/-- The ranges of spec/10_state.md sections 2 to 7 (decisions D21, D33), with what the block's registers mean
together: from every state that meets them, every step leads to one. -/
def Obligations.StepKeepsTheInvariant : Prop :=
  ∀ s t : State, s.Inv → step s = .next t → t.Inv

/-- spec/00_scope.md section 5 (decision D1): all operations of a cycle read start-of-cycle values and their writes
take effect together, whatever order they are written in: the seven words of a sensor cycle, performed in any
order, schedule the same. -/
def Obligations.OrderOfUnitsIsIrrelevant : Prop :=
  ∀ (s : State) (ws : List SelWord), s.SensorCycle → ws.Perm s.fetch →
    runWords ws s.startCycle = runWords s.fetch s.startCycle

/-! ### Bit functions and delays -/

/-- spec/00_scope.md sections 4 and 5 (decisions D4, D14): `rev14`, `ext` and `shift` bit by bit, the floor of the
delays with their least value, and the delays of the spec's example. -/
def Obligations.BitFunctionsAndDelays : Prop :=
  (∀ (v : Sample) (i : Nat), i < 14 → (rev14 v).getLsbD i = v.getLsbD (13 - i)) ∧
  (∀ v : Sample, rev14 (rev14 v) = v) ∧
  (∀ v : CmdWord, ext .msbFirst v = v.getLsbD 13 ∧ ext .lsbFirst v = v.getLsbD 0 ∧
    (shift .msbFirst v).toNat = 2 * v.toNat % 2 ^ 14 ∧ (shift .lsbFirst v).toNat = v.toNat / 2) ∧
  (∀ v : BiasWord, ext .msbFirst v = v.getLsbD 6 ∧ ext .lsbFirst v = v.getLsbD 0 ∧
    (shift .msbFirst v).toNat = 2 * v.toNat % 2 ^ 7 ∧ (shift .lsbFirst v).toNat = v.toNat / 2) ∧
  (∀ (p : Params) (us : Nat), 1 ≤ p.delay us ∧
    (1000000 ≤ us * p.clkFreqHz → p.delay us * 1000000 ≤ us * p.clkFreqHz ∧
      us * p.clkFreqHz < (p.delay us + 1) * 1000000) ∧
    (us * p.clkFreqHz < 1000000 → p.delay us = 1)) ∧
  ∀ p : Params, p.clkFreqHz = 100000 → p.tInitUs = 500 → p.t3v3Us = 15000 → p.t2v5Us = 4000 →
    p.dInit = 50 ∧ p.d3v3 = 1500 ∧ p.d2v5 = 400 ∧ p.readyCycle = 1950
end

