-- ==== Sys2Proof/Laws/Decode.lean ====
section
/-! SUPPORT. What the fetched selector words decode to. -/

namespace Sys2Proof

/-- Every format is read back from its tag. -/
@[simp] theorem Format.ofTag_tag (f : Format) : Format.ofTag f.tag = some f := by
  cases f with
  | selSer x => cases x <;> rfl
  | selFc | selSensor | selPs | selDes | selEmit | selBias | selHost | event => rfl

/-- The bytes of a selector word decode to what the word decodes to. -/
theorem decode_bytes (w : SelWord) (rest : List Byte) :
    decode (w.bytes ++ rest) =
      match decodeSel w with
      | .ok i => .ok (i, rest)
      | .error e => .error e := by
  obtain ⟨f, sel⟩ := w
  show decode (sel :: f.tag :: rest) = _
  cases h : decodeSel ⟨f, sel⟩ <;> simp only [decode, Format.ofTag_tag, h]

namespace Machine

variable (s : State)

/-- `sel_ps`. -/
theorem decode_selPs : decode (selPs s).bytes = .ok (powerOp s.now.power.state, []) := by
  unfold selPs; cases s.now.power.state <;> rfl

/-- `sel_ser`. -/
theorem decode_selSer {w : Nat} (x : SerInst) (r : Serializer w) (q : List (BitVec w)) :
    decode (selSer x r q).bytes = .ok (serOp x r.haveWord (rRdy q) (r.bitcnt + 1 == w), []) := by
  unfold selSer
  generalize r.haveWord = a, rRdy q = b, (r.bitcnt + 1 == w) = c
  cases x <;> cases a <;> cases b <;> cases c <;> rfl

/-- `sel_des`. -/
theorem decode_selDes :
    decode (selDes s).bytes = .ok (captureOp s.now.latchEn (s.now.des.dcnt == 13), []) := by
  unfold selDes
  generalize s.now.latchEn = a, (s.now.des.dcnt == 13) = b
  cases a <;> cases b <;> rfl

/-- `sel_emit`. -/
theorem decode_selEmit :
    decode (selEmit s).bytes = .ok (emitOp s.now.des.haveData s.bwRdy s.now.des.emitSt, []) := by
  unfold selEmit
  generalize s.now.des.haveData = a, s.bwRdy = b, s.now.des.emitSt = c
  cases a <;> cases b <;> cases c <;> rfl

/-- `sel_fc`: the state's operation, or the reserved value's rejection (R66). -/
theorem decode_selFc_eq : ∀ st : BitVec 4, decode (SelWord.bytes ⟨.selFc, st.setWidth 8⟩) =
    match frameOp st with
    | some i => .ok (i, [])
    | none => .error .reservedFcState := by
  decide

/-- `sel_fc` of a state. -/
theorem decode_selFc {i : Instr} (h : frameOp s.now.frame.state = some i) :
    decode (selFc s).bytes = .ok (i, []) := by
  unfold selFc; rw [decode_selFc_eq, h]

/-- `sel_fc` of a reserved value (R66). -/
theorem decode_selFc_reserved (h : frameOp s.now.frame.state = none) :
    decode (selFc s).bytes = .error .reservedFcState := by
  unfold selFc; rw [decode_selFc_eq, h]

/-- `fc_state` names a state unless it is 9 .. 15. -/
theorem frameOp_eq_none_iff (st : BitVec 4) : frameOp st = none ↔ 9 ≤ st.toNat := by
  simp [frameOp]

/-- `sel_bias`. -/
theorem decode_selBias : decode (selBias s).bytes = .ok (biasOp s.now.inj.active s.now.inj.phase, []) := by
  unfold selBias
  generalize s.now.inj.active = a, s.now.inj.phase = b
  cases a <;> cases b <;> rfl

/-- `sel_host`. -/
theorem decode_selHost : decode (selHost s).bytes = .ok (hostOp s.sensorRst s.hostTakes, []) := by
  unfold selHost
  generalize s.sensorRst = a, s.hostTakes = b
  cases a <;> cases b <;> rfl

/-- `sel_sensor` during the reset hold. -/
theorem decode_selSensor (h : s.sensorRst = true) : decode (selSensor s).bytes = .ok (.sensorHeld, []) := by
  unfold selSensor; rw [h]; rfl

/-- `event` when the system reset is asserted. -/
theorem decode_selEvent (h : s.draw.turn = .reset) : decode (selEvent s).bytes = .ok (.sysReset, []) := by
  unfold selEvent; rw [h]; rfl

end Machine

end Sys2Proof
end

