-- ==== Sys2Proof/Laws/State.lean ====
section
/-! SUPPORT. One lemma per field and update of the state: what the update does to the field. Every proof over
the state rewrites with these and unfolds no record update. -/

namespace Sys2Proof.Machine

variable (r : Regs) (s : State)

/-! ### Block.under -/

variable (b : Block) (cfg : Params)

@[simp] theorem Block.under_cfg : (b.under cfg).cfg = cfg := rfl
@[simp] theorem Block.under_toBlock : (b.under cfg).toBlock = b := rfl
@[simp] theorem State.toBlock_under : s.toBlock.under s.cfg = s := rfl

/-- States with the same parts are the same. -/
theorem State.eq_of_parts {s t : State} (hc : s.cfg = t.cfg) (hn : s.now = t.now) (hx : s.nxt = t.nxt)
    (hs : s.script = t.script) (ht : s.tick = t.tick) : s = t := by
  obtain ⟨⟨_, _, _, _⟩, _⟩ := s
  obtain ⟨⟨_, _, _, _⟩, _⟩ := t
  cases hc; cases hn; cases hx; cases hs; cases ht; rfl

@[simp] theorem State.resetOf_cfg : (State.resetOf cfg).cfg = cfg := rfl
@[simp] theorem State.resetOf_toBlock : (State.resetOf cfg).toBlock = Block.reset := rfl
@[simp] theorem Block.reset_now : Block.reset.now = Regs.reset := rfl
@[simp] theorem Block.reset_nxt : Block.reset.nxt = Regs.reset := rfl
@[simp] theorem Block.reset_script : Block.reset.script = [] := rfl

/-! ### Regs.setPower -/

@[simp] theorem Regs.setPower_power (v : Power) : (r.setPower v).power = v := rfl
@[simp] theorem Regs.setPower_frame (v : Power) : (r.setPower v).frame = r.frame := rfl
@[simp] theorem Regs.setPower_inj (v : Power) : (r.setPower v).inj = r.inj := rfl
@[simp] theorem Regs.setPower_cmdSer (v : Power) : (r.setPower v).cmdSer = r.cmdSer := rfl
@[simp] theorem Regs.setPower_biasSer (v : Power) : (r.setPower v).biasSer = r.biasSer := rfl
@[simp] theorem Regs.setPower_des (v : Power) : (r.setPower v).des = r.des := rfl
@[simp] theorem Regs.setPower_cmdQ (v : Power) : (r.setPower v).cmdQ = r.cmdQ := rfl
@[simp] theorem Regs.setPower_biasQ (v : Power) : (r.setPower v).biasQ = r.biasQ := rfl
@[simp] theorem Regs.setPower_bridgeQ (v : Power) : (r.setPower v).bridgeQ = r.bridgeQ := rfl
@[simp] theorem Regs.setPower_rstCnt (v : Power) : (r.setPower v).rstCnt = r.rstCnt := rfl
@[simp] theorem Regs.setPower_hostStream (v : Power) : (r.setPower v).hostStream = r.hostStream := rfl
@[simp] theorem Regs.setPower_fault (v : Power) : (r.setPower v).fault = r.fault := rfl
@[simp] theorem Regs.setPower_overrunCount (v : Power) : (r.setPower v).overrunCount = r.overrunCount := rfl
@[simp] theorem Regs.setPower_cycle (v : Power) : (r.setPower v).cycle = r.cycle := rfl

/-! ### Regs.setFrame -/

@[simp] theorem Regs.setFrame_power (v : Frame) : (r.setFrame v).power = r.power := rfl
@[simp] theorem Regs.setFrame_frame (v : Frame) : (r.setFrame v).frame = v := rfl
@[simp] theorem Regs.setFrame_inj (v : Frame) : (r.setFrame v).inj = r.inj := rfl
@[simp] theorem Regs.setFrame_cmdSer (v : Frame) : (r.setFrame v).cmdSer = r.cmdSer := rfl
@[simp] theorem Regs.setFrame_biasSer (v : Frame) : (r.setFrame v).biasSer = r.biasSer := rfl
@[simp] theorem Regs.setFrame_des (v : Frame) : (r.setFrame v).des = r.des := rfl
@[simp] theorem Regs.setFrame_cmdQ (v : Frame) : (r.setFrame v).cmdQ = r.cmdQ := rfl
@[simp] theorem Regs.setFrame_biasQ (v : Frame) : (r.setFrame v).biasQ = r.biasQ := rfl
@[simp] theorem Regs.setFrame_bridgeQ (v : Frame) : (r.setFrame v).bridgeQ = r.bridgeQ := rfl
@[simp] theorem Regs.setFrame_rstCnt (v : Frame) : (r.setFrame v).rstCnt = r.rstCnt := rfl
@[simp] theorem Regs.setFrame_hostStream (v : Frame) : (r.setFrame v).hostStream = r.hostStream := rfl
@[simp] theorem Regs.setFrame_fault (v : Frame) : (r.setFrame v).fault = r.fault := rfl
@[simp] theorem Regs.setFrame_overrunCount (v : Frame) : (r.setFrame v).overrunCount = r.overrunCount := rfl
@[simp] theorem Regs.setFrame_cycle (v : Frame) : (r.setFrame v).cycle = r.cycle := rfl

/-! ### Regs.setInj -/

@[simp] theorem Regs.setInj_power (v : Injector) : (r.setInj v).power = r.power := rfl
@[simp] theorem Regs.setInj_frame (v : Injector) : (r.setInj v).frame = r.frame := rfl
@[simp] theorem Regs.setInj_inj (v : Injector) : (r.setInj v).inj = v := rfl
@[simp] theorem Regs.setInj_cmdSer (v : Injector) : (r.setInj v).cmdSer = r.cmdSer := rfl
@[simp] theorem Regs.setInj_biasSer (v : Injector) : (r.setInj v).biasSer = r.biasSer := rfl
@[simp] theorem Regs.setInj_des (v : Injector) : (r.setInj v).des = r.des := rfl
@[simp] theorem Regs.setInj_cmdQ (v : Injector) : (r.setInj v).cmdQ = r.cmdQ := rfl
@[simp] theorem Regs.setInj_biasQ (v : Injector) : (r.setInj v).biasQ = r.biasQ := rfl
@[simp] theorem Regs.setInj_bridgeQ (v : Injector) : (r.setInj v).bridgeQ = r.bridgeQ := rfl
@[simp] theorem Regs.setInj_rstCnt (v : Injector) : (r.setInj v).rstCnt = r.rstCnt := rfl
@[simp] theorem Regs.setInj_hostStream (v : Injector) : (r.setInj v).hostStream = r.hostStream := rfl
@[simp] theorem Regs.setInj_fault (v : Injector) : (r.setInj v).fault = r.fault := rfl
@[simp] theorem Regs.setInj_overrunCount (v : Injector) : (r.setInj v).overrunCount = r.overrunCount := rfl
@[simp] theorem Regs.setInj_cycle (v : Injector) : (r.setInj v).cycle = r.cycle := rfl

/-! ### Regs.setCmdSer -/

@[simp] theorem Regs.setCmdSer_power (v : Serializer 14) : (r.setCmdSer v).power = r.power := rfl
@[simp] theorem Regs.setCmdSer_frame (v : Serializer 14) : (r.setCmdSer v).frame = r.frame := rfl
@[simp] theorem Regs.setCmdSer_inj (v : Serializer 14) : (r.setCmdSer v).inj = r.inj := rfl
@[simp] theorem Regs.setCmdSer_cmdSer (v : Serializer 14) : (r.setCmdSer v).cmdSer = v := rfl
@[simp] theorem Regs.setCmdSer_biasSer (v : Serializer 14) : (r.setCmdSer v).biasSer = r.biasSer := rfl
@[simp] theorem Regs.setCmdSer_des (v : Serializer 14) : (r.setCmdSer v).des = r.des := rfl
@[simp] theorem Regs.setCmdSer_cmdQ (v : Serializer 14) : (r.setCmdSer v).cmdQ = r.cmdQ := rfl
@[simp] theorem Regs.setCmdSer_biasQ (v : Serializer 14) : (r.setCmdSer v).biasQ = r.biasQ := rfl
@[simp] theorem Regs.setCmdSer_bridgeQ (v : Serializer 14) : (r.setCmdSer v).bridgeQ = r.bridgeQ := rfl
@[simp] theorem Regs.setCmdSer_rstCnt (v : Serializer 14) : (r.setCmdSer v).rstCnt = r.rstCnt := rfl
@[simp] theorem Regs.setCmdSer_hostStream (v : Serializer 14) : (r.setCmdSer v).hostStream = r.hostStream := rfl
@[simp] theorem Regs.setCmdSer_fault (v : Serializer 14) : (r.setCmdSer v).fault = r.fault := rfl
@[simp] theorem Regs.setCmdSer_overrunCount (v : Serializer 14) : (r.setCmdSer v).overrunCount = r.overrunCount := rfl
@[simp] theorem Regs.setCmdSer_cycle (v : Serializer 14) : (r.setCmdSer v).cycle = r.cycle := rfl

/-! ### Regs.setBiasSer -/

@[simp] theorem Regs.setBiasSer_power (v : Serializer 7) : (r.setBiasSer v).power = r.power := rfl
@[simp] theorem Regs.setBiasSer_frame (v : Serializer 7) : (r.setBiasSer v).frame = r.frame := rfl
@[simp] theorem Regs.setBiasSer_inj (v : Serializer 7) : (r.setBiasSer v).inj = r.inj := rfl
@[simp] theorem Regs.setBiasSer_cmdSer (v : Serializer 7) : (r.setBiasSer v).cmdSer = r.cmdSer := rfl
@[simp] theorem Regs.setBiasSer_biasSer (v : Serializer 7) : (r.setBiasSer v).biasSer = v := rfl
@[simp] theorem Regs.setBiasSer_des (v : Serializer 7) : (r.setBiasSer v).des = r.des := rfl
@[simp] theorem Regs.setBiasSer_cmdQ (v : Serializer 7) : (r.setBiasSer v).cmdQ = r.cmdQ := rfl
@[simp] theorem Regs.setBiasSer_biasQ (v : Serializer 7) : (r.setBiasSer v).biasQ = r.biasQ := rfl
@[simp] theorem Regs.setBiasSer_bridgeQ (v : Serializer 7) : (r.setBiasSer v).bridgeQ = r.bridgeQ := rfl
@[simp] theorem Regs.setBiasSer_rstCnt (v : Serializer 7) : (r.setBiasSer v).rstCnt = r.rstCnt := rfl
@[simp] theorem Regs.setBiasSer_hostStream (v : Serializer 7) : (r.setBiasSer v).hostStream = r.hostStream := rfl
@[simp] theorem Regs.setBiasSer_fault (v : Serializer 7) : (r.setBiasSer v).fault = r.fault := rfl
@[simp] theorem Regs.setBiasSer_overrunCount (v : Serializer 7) : (r.setBiasSer v).overrunCount = r.overrunCount := rfl
@[simp] theorem Regs.setBiasSer_cycle (v : Serializer 7) : (r.setBiasSer v).cycle = r.cycle := rfl

/-! ### Regs.setDes -/

@[simp] theorem Regs.setDes_power (v : Deserializer) : (r.setDes v).power = r.power := rfl
@[simp] theorem Regs.setDes_frame (v : Deserializer) : (r.setDes v).frame = r.frame := rfl
@[simp] theorem Regs.setDes_inj (v : Deserializer) : (r.setDes v).inj = r.inj := rfl
@[simp] theorem Regs.setDes_cmdSer (v : Deserializer) : (r.setDes v).cmdSer = r.cmdSer := rfl
@[simp] theorem Regs.setDes_biasSer (v : Deserializer) : (r.setDes v).biasSer = r.biasSer := rfl
@[simp] theorem Regs.setDes_des (v : Deserializer) : (r.setDes v).des = v := rfl
@[simp] theorem Regs.setDes_cmdQ (v : Deserializer) : (r.setDes v).cmdQ = r.cmdQ := rfl
@[simp] theorem Regs.setDes_biasQ (v : Deserializer) : (r.setDes v).biasQ = r.biasQ := rfl
@[simp] theorem Regs.setDes_bridgeQ (v : Deserializer) : (r.setDes v).bridgeQ = r.bridgeQ := rfl
@[simp] theorem Regs.setDes_rstCnt (v : Deserializer) : (r.setDes v).rstCnt = r.rstCnt := rfl
@[simp] theorem Regs.setDes_hostStream (v : Deserializer) : (r.setDes v).hostStream = r.hostStream := rfl
@[simp] theorem Regs.setDes_fault (v : Deserializer) : (r.setDes v).fault = r.fault := rfl
@[simp] theorem Regs.setDes_overrunCount (v : Deserializer) : (r.setDes v).overrunCount = r.overrunCount := rfl
@[simp] theorem Regs.setDes_cycle (v : Deserializer) : (r.setDes v).cycle = r.cycle := rfl

/-! ### Regs.setCmdQ -/

@[simp] theorem Regs.setCmdQ_power (v : List CmdWord) : (r.setCmdQ v).power = r.power := rfl
@[simp] theorem Regs.setCmdQ_frame (v : List CmdWord) : (r.setCmdQ v).frame = r.frame := rfl
@[simp] theorem Regs.setCmdQ_inj (v : List CmdWord) : (r.setCmdQ v).inj = r.inj := rfl
@[simp] theorem Regs.setCmdQ_cmdSer (v : List CmdWord) : (r.setCmdQ v).cmdSer = r.cmdSer := rfl
@[simp] theorem Regs.setCmdQ_biasSer (v : List CmdWord) : (r.setCmdQ v).biasSer = r.biasSer := rfl
@[simp] theorem Regs.setCmdQ_des (v : List CmdWord) : (r.setCmdQ v).des = r.des := rfl
@[simp] theorem Regs.setCmdQ_cmdQ (v : List CmdWord) : (r.setCmdQ v).cmdQ = v := rfl
@[simp] theorem Regs.setCmdQ_biasQ (v : List CmdWord) : (r.setCmdQ v).biasQ = r.biasQ := rfl
@[simp] theorem Regs.setCmdQ_bridgeQ (v : List CmdWord) : (r.setCmdQ v).bridgeQ = r.bridgeQ := rfl
@[simp] theorem Regs.setCmdQ_rstCnt (v : List CmdWord) : (r.setCmdQ v).rstCnt = r.rstCnt := rfl
@[simp] theorem Regs.setCmdQ_hostStream (v : List CmdWord) : (r.setCmdQ v).hostStream = r.hostStream := rfl
@[simp] theorem Regs.setCmdQ_fault (v : List CmdWord) : (r.setCmdQ v).fault = r.fault := rfl
@[simp] theorem Regs.setCmdQ_overrunCount (v : List CmdWord) : (r.setCmdQ v).overrunCount = r.overrunCount := rfl
@[simp] theorem Regs.setCmdQ_cycle (v : List CmdWord) : (r.setCmdQ v).cycle = r.cycle := rfl

/-! ### Regs.setBiasQ -/

@[simp] theorem Regs.setBiasQ_power (v : List BiasWord) : (r.setBiasQ v).power = r.power := rfl
@[simp] theorem Regs.setBiasQ_frame (v : List BiasWord) : (r.setBiasQ v).frame = r.frame := rfl
@[simp] theorem Regs.setBiasQ_inj (v : List BiasWord) : (r.setBiasQ v).inj = r.inj := rfl
@[simp] theorem Regs.setBiasQ_cmdSer (v : List BiasWord) : (r.setBiasQ v).cmdSer = r.cmdSer := rfl
@[simp] theorem Regs.setBiasQ_biasSer (v : List BiasWord) : (r.setBiasQ v).biasSer = r.biasSer := rfl
@[simp] theorem Regs.setBiasQ_des (v : List BiasWord) : (r.setBiasQ v).des = r.des := rfl
@[simp] theorem Regs.setBiasQ_cmdQ (v : List BiasWord) : (r.setBiasQ v).cmdQ = r.cmdQ := rfl
@[simp] theorem Regs.setBiasQ_biasQ (v : List BiasWord) : (r.setBiasQ v).biasQ = v := rfl
@[simp] theorem Regs.setBiasQ_bridgeQ (v : List BiasWord) : (r.setBiasQ v).bridgeQ = r.bridgeQ := rfl
@[simp] theorem Regs.setBiasQ_rstCnt (v : List BiasWord) : (r.setBiasQ v).rstCnt = r.rstCnt := rfl
@[simp] theorem Regs.setBiasQ_hostStream (v : List BiasWord) : (r.setBiasQ v).hostStream = r.hostStream := rfl
@[simp] theorem Regs.setBiasQ_fault (v : List BiasWord) : (r.setBiasQ v).fault = r.fault := rfl
@[simp] theorem Regs.setBiasQ_overrunCount (v : List BiasWord) : (r.setBiasQ v).overrunCount = r.overrunCount := rfl
@[simp] theorem Regs.setBiasQ_cycle (v : List BiasWord) : (r.setBiasQ v).cycle = r.cycle := rfl

/-! ### Regs.setBridgeQ -/

@[simp] theorem Regs.setBridgeQ_power (v : List Byte) : (r.setBridgeQ v).power = r.power := rfl
@[simp] theorem Regs.setBridgeQ_frame (v : List Byte) : (r.setBridgeQ v).frame = r.frame := rfl
@[simp] theorem Regs.setBridgeQ_inj (v : List Byte) : (r.setBridgeQ v).inj = r.inj := rfl
@[simp] theorem Regs.setBridgeQ_cmdSer (v : List Byte) : (r.setBridgeQ v).cmdSer = r.cmdSer := rfl
@[simp] theorem Regs.setBridgeQ_biasSer (v : List Byte) : (r.setBridgeQ v).biasSer = r.biasSer := rfl
@[simp] theorem Regs.setBridgeQ_des (v : List Byte) : (r.setBridgeQ v).des = r.des := rfl
@[simp] theorem Regs.setBridgeQ_cmdQ (v : List Byte) : (r.setBridgeQ v).cmdQ = r.cmdQ := rfl
@[simp] theorem Regs.setBridgeQ_biasQ (v : List Byte) : (r.setBridgeQ v).biasQ = r.biasQ := rfl
@[simp] theorem Regs.setBridgeQ_bridgeQ (v : List Byte) : (r.setBridgeQ v).bridgeQ = v := rfl
@[simp] theorem Regs.setBridgeQ_rstCnt (v : List Byte) : (r.setBridgeQ v).rstCnt = r.rstCnt := rfl
@[simp] theorem Regs.setBridgeQ_hostStream (v : List Byte) : (r.setBridgeQ v).hostStream = r.hostStream := rfl
@[simp] theorem Regs.setBridgeQ_fault (v : List Byte) : (r.setBridgeQ v).fault = r.fault := rfl
@[simp] theorem Regs.setBridgeQ_overrunCount (v : List Byte) : (r.setBridgeQ v).overrunCount = r.overrunCount := rfl
@[simp] theorem Regs.setBridgeQ_cycle (v : List Byte) : (r.setBridgeQ v).cycle = r.cycle := rfl

/-! ### Regs.setRstCnt -/

@[simp] theorem Regs.setRstCnt_power (v : Nat) : (r.setRstCnt v).power = r.power := rfl
@[simp] theorem Regs.setRstCnt_frame (v : Nat) : (r.setRstCnt v).frame = r.frame := rfl
@[simp] theorem Regs.setRstCnt_inj (v : Nat) : (r.setRstCnt v).inj = r.inj := rfl
@[simp] theorem Regs.setRstCnt_cmdSer (v : Nat) : (r.setRstCnt v).cmdSer = r.cmdSer := rfl
@[simp] theorem Regs.setRstCnt_biasSer (v : Nat) : (r.setRstCnt v).biasSer = r.biasSer := rfl
@[simp] theorem Regs.setRstCnt_des (v : Nat) : (r.setRstCnt v).des = r.des := rfl
@[simp] theorem Regs.setRstCnt_cmdQ (v : Nat) : (r.setRstCnt v).cmdQ = r.cmdQ := rfl
@[simp] theorem Regs.setRstCnt_biasQ (v : Nat) : (r.setRstCnt v).biasQ = r.biasQ := rfl
@[simp] theorem Regs.setRstCnt_bridgeQ (v : Nat) : (r.setRstCnt v).bridgeQ = r.bridgeQ := rfl
@[simp] theorem Regs.setRstCnt_rstCnt (v : Nat) : (r.setRstCnt v).rstCnt = v := rfl
@[simp] theorem Regs.setRstCnt_hostStream (v : Nat) : (r.setRstCnt v).hostStream = r.hostStream := rfl
@[simp] theorem Regs.setRstCnt_fault (v : Nat) : (r.setRstCnt v).fault = r.fault := rfl
@[simp] theorem Regs.setRstCnt_overrunCount (v : Nat) : (r.setRstCnt v).overrunCount = r.overrunCount := rfl
@[simp] theorem Regs.setRstCnt_cycle (v : Nat) : (r.setRstCnt v).cycle = r.cycle := rfl

/-! ### Regs.setHostStream -/

@[simp] theorem Regs.setHostStream_power (v : List Byte) : (r.setHostStream v).power = r.power := rfl
@[simp] theorem Regs.setHostStream_frame (v : List Byte) : (r.setHostStream v).frame = r.frame := rfl
@[simp] theorem Regs.setHostStream_inj (v : List Byte) : (r.setHostStream v).inj = r.inj := rfl
@[simp] theorem Regs.setHostStream_cmdSer (v : List Byte) : (r.setHostStream v).cmdSer = r.cmdSer := rfl
@[simp] theorem Regs.setHostStream_biasSer (v : List Byte) : (r.setHostStream v).biasSer = r.biasSer := rfl
@[simp] theorem Regs.setHostStream_des (v : List Byte) : (r.setHostStream v).des = r.des := rfl
@[simp] theorem Regs.setHostStream_cmdQ (v : List Byte) : (r.setHostStream v).cmdQ = r.cmdQ := rfl
@[simp] theorem Regs.setHostStream_biasQ (v : List Byte) : (r.setHostStream v).biasQ = r.biasQ := rfl
@[simp] theorem Regs.setHostStream_bridgeQ (v : List Byte) : (r.setHostStream v).bridgeQ = r.bridgeQ := rfl
@[simp] theorem Regs.setHostStream_rstCnt (v : List Byte) : (r.setHostStream v).rstCnt = r.rstCnt := rfl
@[simp] theorem Regs.setHostStream_hostStream (v : List Byte) : (r.setHostStream v).hostStream = v := rfl
@[simp] theorem Regs.setHostStream_fault (v : List Byte) : (r.setHostStream v).fault = r.fault := rfl
@[simp] theorem Regs.setHostStream_overrunCount (v : List Byte) : (r.setHostStream v).overrunCount = r.overrunCount := rfl
@[simp] theorem Regs.setHostStream_cycle (v : List Byte) : (r.setHostStream v).cycle = r.cycle := rfl

/-! ### Regs.setFault -/

@[simp] theorem Regs.setFault_power (v : Option FaultRecord) : (r.setFault v).power = r.power := rfl
@[simp] theorem Regs.setFault_frame (v : Option FaultRecord) : (r.setFault v).frame = r.frame := rfl
@[simp] theorem Regs.setFault_inj (v : Option FaultRecord) : (r.setFault v).inj = r.inj := rfl
@[simp] theorem Regs.setFault_cmdSer (v : Option FaultRecord) : (r.setFault v).cmdSer = r.cmdSer := rfl
@[simp] theorem Regs.setFault_biasSer (v : Option FaultRecord) : (r.setFault v).biasSer = r.biasSer := rfl
@[simp] theorem Regs.setFault_des (v : Option FaultRecord) : (r.setFault v).des = r.des := rfl
@[simp] theorem Regs.setFault_cmdQ (v : Option FaultRecord) : (r.setFault v).cmdQ = r.cmdQ := rfl
@[simp] theorem Regs.setFault_biasQ (v : Option FaultRecord) : (r.setFault v).biasQ = r.biasQ := rfl
@[simp] theorem Regs.setFault_bridgeQ (v : Option FaultRecord) : (r.setFault v).bridgeQ = r.bridgeQ := rfl
@[simp] theorem Regs.setFault_rstCnt (v : Option FaultRecord) : (r.setFault v).rstCnt = r.rstCnt := rfl
@[simp] theorem Regs.setFault_hostStream (v : Option FaultRecord) : (r.setFault v).hostStream = r.hostStream := rfl
@[simp] theorem Regs.setFault_fault (v : Option FaultRecord) : (r.setFault v).fault = v := rfl
@[simp] theorem Regs.setFault_overrunCount (v : Option FaultRecord) : (r.setFault v).overrunCount = r.overrunCount := rfl
@[simp] theorem Regs.setFault_cycle (v : Option FaultRecord) : (r.setFault v).cycle = r.cycle := rfl

/-! ### Regs.setOverrunCount -/

@[simp] theorem Regs.setOverrunCount_power (v : Nat) : (r.setOverrunCount v).power = r.power := rfl
@[simp] theorem Regs.setOverrunCount_frame (v : Nat) : (r.setOverrunCount v).frame = r.frame := rfl
@[simp] theorem Regs.setOverrunCount_inj (v : Nat) : (r.setOverrunCount v).inj = r.inj := rfl
@[simp] theorem Regs.setOverrunCount_cmdSer (v : Nat) : (r.setOverrunCount v).cmdSer = r.cmdSer := rfl
@[simp] theorem Regs.setOverrunCount_biasSer (v : Nat) : (r.setOverrunCount v).biasSer = r.biasSer := rfl
@[simp] theorem Regs.setOverrunCount_des (v : Nat) : (r.setOverrunCount v).des = r.des := rfl
@[simp] theorem Regs.setOverrunCount_cmdQ (v : Nat) : (r.setOverrunCount v).cmdQ = r.cmdQ := rfl
@[simp] theorem Regs.setOverrunCount_biasQ (v : Nat) : (r.setOverrunCount v).biasQ = r.biasQ := rfl
@[simp] theorem Regs.setOverrunCount_bridgeQ (v : Nat) : (r.setOverrunCount v).bridgeQ = r.bridgeQ := rfl
@[simp] theorem Regs.setOverrunCount_rstCnt (v : Nat) : (r.setOverrunCount v).rstCnt = r.rstCnt := rfl
@[simp] theorem Regs.setOverrunCount_hostStream (v : Nat) : (r.setOverrunCount v).hostStream = r.hostStream := rfl
@[simp] theorem Regs.setOverrunCount_fault (v : Nat) : (r.setOverrunCount v).fault = r.fault := rfl
@[simp] theorem Regs.setOverrunCount_overrunCount (v : Nat) : (r.setOverrunCount v).overrunCount = v := rfl
@[simp] theorem Regs.setOverrunCount_cycle (v : Nat) : (r.setOverrunCount v).cycle = r.cycle := rfl

/-! ### Regs.setCycle -/

@[simp] theorem Regs.setCycle_power (v : Nat) : (r.setCycle v).power = r.power := rfl
@[simp] theorem Regs.setCycle_frame (v : Nat) : (r.setCycle v).frame = r.frame := rfl
@[simp] theorem Regs.setCycle_inj (v : Nat) : (r.setCycle v).inj = r.inj := rfl
@[simp] theorem Regs.setCycle_cmdSer (v : Nat) : (r.setCycle v).cmdSer = r.cmdSer := rfl
@[simp] theorem Regs.setCycle_biasSer (v : Nat) : (r.setCycle v).biasSer = r.biasSer := rfl
@[simp] theorem Regs.setCycle_des (v : Nat) : (r.setCycle v).des = r.des := rfl
@[simp] theorem Regs.setCycle_cmdQ (v : Nat) : (r.setCycle v).cmdQ = r.cmdQ := rfl
@[simp] theorem Regs.setCycle_biasQ (v : Nat) : (r.setCycle v).biasQ = r.biasQ := rfl
@[simp] theorem Regs.setCycle_bridgeQ (v : Nat) : (r.setCycle v).bridgeQ = r.bridgeQ := rfl
@[simp] theorem Regs.setCycle_rstCnt (v : Nat) : (r.setCycle v).rstCnt = r.rstCnt := rfl
@[simp] theorem Regs.setCycle_hostStream (v : Nat) : (r.setCycle v).hostStream = r.hostStream := rfl
@[simp] theorem Regs.setCycle_fault (v : Nat) : (r.setCycle v).fault = r.fault := rfl
@[simp] theorem Regs.setCycle_overrunCount (v : Nat) : (r.setCycle v).overrunCount = r.overrunCount := rfl
@[simp] theorem Regs.setCycle_cycle (v : Nat) : (r.setCycle v).cycle = v := rfl

/-! ### Regs.heldInReset -/

@[simp] theorem Regs.heldInReset_power : r.heldInReset.power = Power.reset := rfl
@[simp] theorem Regs.heldInReset_frame : r.heldInReset.frame = Frame.reset := rfl
@[simp] theorem Regs.heldInReset_inj : r.heldInReset.inj = Injector.reset := rfl
@[simp] theorem Regs.heldInReset_cmdSer : r.heldInReset.cmdSer = Serializer.reset 14 := rfl
@[simp] theorem Regs.heldInReset_biasSer : r.heldInReset.biasSer = Serializer.reset 7 := rfl
@[simp] theorem Regs.heldInReset_des : r.heldInReset.des = Deserializer.reset := rfl
@[simp] theorem Regs.heldInReset_cmdQ : r.heldInReset.cmdQ = r.cmdQ := rfl
@[simp] theorem Regs.heldInReset_biasQ : r.heldInReset.biasQ = r.biasQ := rfl
@[simp] theorem Regs.heldInReset_bridgeQ : r.heldInReset.bridgeQ = r.bridgeQ := rfl
@[simp] theorem Regs.heldInReset_rstCnt : r.heldInReset.rstCnt = r.rstCnt := rfl
@[simp] theorem Regs.heldInReset_hostStream : r.heldInReset.hostStream = r.hostStream := rfl
@[simp] theorem Regs.heldInReset_fault : r.heldInReset.fault = r.fault := rfl
@[simp] theorem Regs.heldInReset_overrunCount : r.heldInReset.overrunCount = r.overrunCount := rfl
@[simp] theorem Regs.heldInReset_cycle : r.heldInReset.cycle = r.cycle := rfl

/-! ### Regs.reset -/

@[simp] theorem Regs.reset_power : Regs.reset.power = Power.reset := rfl
@[simp] theorem Regs.reset_frame : Regs.reset.frame = Frame.reset := rfl
@[simp] theorem Regs.reset_inj : Regs.reset.inj = Injector.reset := rfl
@[simp] theorem Regs.reset_cmdSer : Regs.reset.cmdSer = Serializer.reset 14 := rfl
@[simp] theorem Regs.reset_biasSer : Regs.reset.biasSer = Serializer.reset 7 := rfl
@[simp] theorem Regs.reset_des : Regs.reset.des = Deserializer.reset := rfl
@[simp] theorem Regs.reset_cmdQ : Regs.reset.cmdQ = [] := rfl
@[simp] theorem Regs.reset_biasQ : Regs.reset.biasQ = [] := rfl
@[simp] theorem Regs.reset_bridgeQ : Regs.reset.bridgeQ = [] := rfl
@[simp] theorem Regs.reset_rstCnt : Regs.reset.rstCnt = 0 := rfl
@[simp] theorem Regs.reset_hostStream : Regs.reset.hostStream = [] := rfl
@[simp] theorem Regs.reset_fault : Regs.reset.fault = none := rfl
@[simp] theorem Regs.reset_overrunCount : Regs.reset.overrunCount = 0 := rfl
@[simp] theorem Regs.reset_cycle : Regs.reset.cycle = 0 := rfl

/-! ### State.sched -/

@[simp] theorem State.sched_cfg (f : Regs → Regs) : (s.sched f).cfg = s.cfg := rfl
@[simp] theorem State.sched_now (f : Regs → Regs) : (s.sched f).now = s.now := rfl
@[simp] theorem State.sched_nxt (f : Regs → Regs) : (s.sched f).nxt = f s.nxt := rfl
@[simp] theorem State.sched_script (f : Regs → Regs) : (s.sched f).script = s.script := rfl
@[simp] theorem State.sched_tick (f : Regs → Regs) : (s.sched f).tick = s.tick := rfl

/-! ### State.schedFrame -/

@[simp] theorem State.schedFrame_cfg (f : Frame → Frame) : (s.schedFrame f).cfg = s.cfg := rfl
@[simp] theorem State.schedFrame_now (f : Frame → Frame) : (s.schedFrame f).now = s.now := rfl
@[simp] theorem State.schedFrame_nxt (f : Frame → Frame) : (s.schedFrame f).nxt = s.nxt.setFrame (f s.nxt.frame) := rfl
@[simp] theorem State.schedFrame_script (f : Frame → Frame) : (s.schedFrame f).script = s.script := rfl
@[simp] theorem State.schedFrame_tick (f : Frame → Frame) : (s.schedFrame f).tick = s.tick := rfl

/-! ### State.startCycle -/

@[simp] theorem State.startCycle_cfg : (s.startCycle).cfg = s.cfg := rfl
@[simp] theorem State.startCycle_now : (s.startCycle).now = s.now := rfl
@[simp] theorem State.startCycle_nxt : (s.startCycle).nxt = s.now := rfl
@[simp] theorem State.startCycle_script : (s.startCycle).script = s.script := rfl
@[simp] theorem State.startCycle_tick : (s.startCycle).tick = s.tick := rfl

/-! ### State.nextDraw -/

@[simp] theorem State.nextDraw_cfg : (s.nextDraw).cfg = s.cfg := rfl
@[simp] theorem State.nextDraw_now : (s.nextDraw).now = s.now := rfl
@[simp] theorem State.nextDraw_nxt : (s.nextDraw).nxt = s.nxt := rfl
@[simp] theorem State.nextDraw_script : (s.nextDraw).script = s.script.tail := rfl
@[simp] theorem State.nextDraw_tick : (s.nextDraw).tick = s.tick + 1 := rfl

/-! ### State.setRegs -/

@[simp] theorem State.setRegs_cfg : (s.setRegs r).cfg = s.cfg := rfl
@[simp] theorem State.setRegs_now : (s.setRegs r).now = r := rfl
@[simp] theorem State.setRegs_nxt : (s.setRegs r).nxt = r := rfl
@[simp] theorem State.setRegs_script : (s.setRegs r).script = s.script := rfl
@[simp] theorem State.setRegs_tick : (s.setRegs r).tick = s.tick := rfl

/-! ### State.withInput -/

@[simp] theorem State.withInput_cfg (d : Draw) : (s.withInput d).cfg = s.cfg := rfl
@[simp] theorem State.withInput_now (d : Draw) : (s.withInput d).now = s.now := rfl
@[simp] theorem State.withInput_nxt (d : Draw) : (s.withInput d).nxt = s.nxt := rfl
@[simp] theorem State.withInput_script (d : Draw) : (s.withInput d).script = d :: s.script := rfl
@[simp] theorem State.withInput_tick (d : Draw) : (s.withInput d).tick = s.tick := rfl

/-! ### The inputs and the signals of a cycle are not changed by scheduling -/

@[simp] theorem State.draw_withInput (d : Draw) : (s.withInput d).draw = d := rfl
@[simp] theorem State.draw_sched (f : Regs → Regs) : (s.sched f).draw = s.draw := rfl
@[simp] theorem State.draw_schedFrame (f : Frame → Frame) : (s.schedFrame f).draw = s.draw := rfl
@[simp] theorem State.draw_startCycle : s.startCycle.draw = s.draw := rfl
@[simp] theorem State.sensorRst_sched (f : Regs → Regs) : (s.sched f).sensorRst = s.sensorRst := rfl
@[simp] theorem State.sensorRst_startCycle : s.startCycle.sensorRst = s.sensorRst := rfl
@[simp] theorem State.bwRdy_sched (f : Regs → Regs) : (s.sched f).bwRdy = s.bwRdy := rfl
@[simp] theorem State.bwRdy_startCycle : s.startCycle.bwRdy = s.bwRdy := rfl
@[simp] theorem State.overruns_sched (f : Regs → Regs) : (s.sched f).overruns = s.overruns := rfl
@[simp] theorem State.overruns_startCycle : s.startCycle.overruns = s.overruns := rfl
@[simp] theorem State.sched_sched (f g : Regs → Regs) : (s.sched f).sched g = s.sched (g ∘ f) := rfl
theorem State.schedFrame_eq (f : Frame → Frame) :
    s.schedFrame f = s.sched fun r => r.setFrame (f r.frame) := rfl

end Sys2Proof.Machine
end

