-- ==== Sys2Proof/Laws/Ops.lean ====
section
/-! SUPPORT. For each shared operation, one lemma that says what it can do. -/

namespace Sys2Proof.Machine

variable (s t u : State)

/-! ### Chaining outcomes -/

@[simp] theorem andThen_next (f : State → Result) : andThen (.next s) f = f s := rfl
@[simp] theorem andThen_fault (e : Fault) (f : State → Result) : andThen (.fault e) f = .fault e := rfl
@[simp] theorem andThen_refused (e : Refusal) (f : State → Result) :
    andThen (.refused e) f = .refused e := rfl

/-- A chain that answers a next state went through one. -/
theorem andThen_eq_next {r : Result} {f : State → Result} {u : State} :
    andThen r f = .next u ↔ ∃ t, r = .next t ∧ f t = .next u := by
  cases r <;> simp

variable {σ τ : Type}

@[simp] theorem mapNext_next (f : σ → τ) (x : σ) : mapNext f (.next x) = .next (f x) := rfl
@[simp] theorem mapNext_fault (f : σ → τ) (e : Fault) : mapNext f (.fault e) = .fault e := rfl
@[simp] theorem mapNext_refused (f : σ → τ) (e : Refusal) : mapNext f (.refused e) = .refused e := rfl

/-! ### Raising a fault -/

/-- What raising a fault schedules: the fault, or an earlier one of higher priority (R134). -/
theorem State.raiseFault_eq (c : FaultCode) (v : Nat) :
    s.raiseFault c v = s.sched (·.setFault (some
      (match s.nxt.fault with
        | none => ⟨c, s.now.cycle, v⟩
        | some g => g.first ⟨c, s.now.cycle, v⟩))) := by
  unfold State.raiseFault
  cases s.nxt.fault <;> rfl

/-- The first fault of a cycle is scheduled as it is. -/
theorem State.raiseFault_of_none (h : s.nxt.fault = none) (c : FaultCode) (v : Nat) :
    s.raiseFault c v = s.sched (·.setFault (some ⟨c, s.now.cycle, v⟩)) := by
  rw [State.raiseFault_eq, h]

variable (c : FaultCode) (v : Nat)

@[simp] theorem State.raiseFault_cfg : (s.raiseFault c v).cfg = s.cfg := by rw [raiseFault_eq]; rfl
@[simp] theorem State.raiseFault_now : (s.raiseFault c v).now = s.now := by rw [raiseFault_eq]; rfl
@[simp] theorem State.raiseFault_script : (s.raiseFault c v).script = s.script := by
  rw [raiseFault_eq]; rfl
@[simp] theorem State.raiseFault_tick : (s.raiseFault c v).tick = s.tick := by rw [raiseFault_eq]; rfl
@[simp] theorem State.draw_raiseFault : (s.raiseFault c v).draw = s.draw := by rw [raiseFault_eq]; rfl

/-! ### The end of a cycle -/

/-- Without a fault all scheduled writes take effect (R13). -/
theorem State.commit_of_none (h : s.nxt.fault = none) : s.commit = s.setRegs s.nxt := by
  unfold State.commit; rw [h]; rfl

/-- With a fault none does, and the fault is recorded (R133). -/
theorem State.commit_of_some {f : FaultRecord} (h : s.nxt.fault = some f) :
    s.commit = s.setRegs (s.now.setFault (some f)) := by
  unfold State.commit; rw [h]; rfl

@[simp] theorem State.commit_cfg : s.commit.cfg = s.cfg := by unfold State.commit; split <;> rfl
@[simp] theorem State.commit_script : s.commit.script = s.script := by
  unfold State.commit; split <;> rfl
@[simp] theorem State.commit_tick : s.commit.tick = s.tick := by unfold State.commit; split <;> rfl

/-- After a cycle nothing is left scheduled. -/
@[simp] theorem State.commit_nxt : s.commit.nxt = s.commit.now := by
  unfold State.commit; split <;> rfl

/-! ### Counting sensor cycles -/

/-- A sensor cycle out of reset counts. -/
theorem State.countCycle_of_sensor (h : s.draw.turn = .sensor) (h' : s.sensorRst = false) :
    s.countCycle = s.sched (·.setCycle (s.now.cycle + 1)) := by
  simp [State.countCycle, h, h']

/-- A host cycle does not count. -/
theorem State.countCycle_of_turn (h : s.draw.turn ≠ .sensor) : s.countCycle = s := by
  simp [State.countCycle, h]

/-- A sensor step in reset does not count. -/
theorem State.countCycle_of_held (h : s.sensorRst = true) : s.countCycle = s := by
  simp [State.countCycle, h]

end Sys2Proof.Machine
end

