-- ==== Sys2Proof/Laws/Exec.lean ====
section
/-! SUPPORT. What an operation can do: it reads the start-of-cycle values and the inputs, and it changes
nothing but the scheduled values. -/

namespace Sys2Proof.Machine

/-- What an operation schedules, from the values of `s` at the start of the cycle, into registers `r`. -/
def effectOf (i : Instr) (s : State) (r : Regs) : Regs :=
  match exec i { s with nxt := r } with
  | .next t => t.nxt
  | .fault _ => r
  | .refused _ => r

/-- The effect of an operation does not depend on what other operations of the cycle have scheduled. -/
@[simp] theorem effectOf_sched (i : Instr) (s : State) (f : Regs → Regs) :
    effectOf i (s.sched f) = effectOf i s := rfl

theorem State.raiseFault_sched (s : State) (c : FaultCode) (v : Nat) :
    s.raiseFault c v = s.sched fun r => r.setFault (some
      (match r.fault with
        | none => ⟨c, s.now.cycle, v⟩
        | some g => g.first ⟨c, s.now.cycle, v⟩)) := by
  rw [State.raiseFault_eq]; rfl

/-- The outcome is a next state of which only the scheduled values differ from those of `s`. -/
def Schedules (s : State) (r : Result) : Prop := ∃ f, r = .next (s.sched f)

theorem Schedules.self (s : State) : Schedules s (.next s) := ⟨id, rfl⟩

theorem Schedules.sched (s : State) (f : Regs → Regs) : Schedules s (.next (s.sched f)) := ⟨f, rfl⟩

theorem Schedules.schedFrame (s : State) (f : Frame → Frame) : Schedules s (.next (s.schedFrame f)) :=
  ⟨_, rfl⟩

theorem Schedules.raiseFault (s : State) (c : FaultCode) (v : Nat) :
    Schedules s (.next (s.raiseFault c v)) := ⟨_, by rw [State.raiseFault_sched]⟩

theorem Schedules.triggerEarly {s t : State} (n : Nat) (h : Schedules s (.next t)) :
    Schedules s (.next (triggerEarly n t)) := by
  obtain ⟨f, h⟩ := h
  cases h
  unfold Machine.triggerEarly startBurst
  split
  · split
    · rw [State.raiseFault_sched]; exact ⟨_, congrArg Host.Outcome.next (State.sched_sched s f _)⟩
    · exact ⟨_, congrArg Host.Outcome.next (State.sched_sched s f _)⟩
  · exact ⟨f, rfl⟩

theorem Schedules.countToLine (s : State) (n : Nat) : Schedules s (.next (countToLine n s)) := by
  unfold Machine.countToLine
  split <;> exact Schedules.schedFrame _ _

theorem Schedules.timedPowerState (s : State) (d : Nat) (p : PowerState) :
    Schedules s (.next (timedPowerState d p s)) := by
  unfold Machine.timedPowerState
  split <;> exact Schedules.sched _ _

/-- A legal operation answers a next state and changes only what is scheduled. -/
theorem schedules_of_legal (i : Instr) (s : State) (h : s.Legal i) : Schedules s (exec i s) := by
  cases i with
  | serLoad x =>
    cases x <;> obtain ⟨w, q, hq⟩ := List.exists_cons_of_ne_nil h <;>
      simp only [exec, execSerLoad, hq] <;> exact Schedules.sched _ _
  | hostXfer =>
    obtain ⟨w, q, hq⟩ := List.exists_cons_of_ne_nil h
    simp only [exec, execHostXfer, hq]; exact Schedules.sched _ _
  | emitEvenLo | emitEvenHi | emitOddLo | emitOddHi =>
    simp only [State.Legal] at h
    simp only [exec, execEmitEvenLo, execEmitEvenHi, execEmitOddLo, execEmitOddHi, pushBridge, wRdy, h,
      decide_true, if_true]
    exact Schedules.sched _ _
  | fcSendcmd =>
    simp only [State.Legal] at h
    simp only [exec, execFcSendcmd, Params.cmdWord?, List.getElem?_eq_getElem h, Option.map_some]
    split
    · exact Schedules.sched _ _
    · exact Schedules.raiseFault _ _ _
  | serIdle x | serShift x | serLast x =>
    cases x <;> first | exact Schedules.self _ | exact Schedules.sched _ _
  | fcPowerup =>
    simp only [exec, execFcPowerup]
    split
    · exact Schedules.schedFrame _ _
    · exact Schedules.self _
  | fcInit => simp only [exec, execFcInit]; split <;> exact Schedules.schedFrame _ _
  | fcSendcmdAdvance => simp only [exec, execFcSendcmdAdvance]; split <;> exact Schedules.schedFrame _ _
  | fcReadline =>
    simp only [exec, execFcReadline]
    split
    · split <;> exact Schedules.schedFrame _ _
    · exact Schedules.schedFrame _ _
  | fcInterframe => simp only [exec, execFcInterframe]; split <;> exact Schedules.schedFrame _ _
  | fcWaitFrameStart =>
    simp only [exec, execFcWaitFrameStart]
    split
    · exact Schedules.triggerEarly _ (Schedules.countToLine _ _)
    · exact Schedules.self _
  | fcWaitline => exact Schedules.triggerEarly _ (Schedules.countToLine _ _)
  | biasWrite =>
    simp only [exec, execBiasWrite]
    split
    · exact Schedules.sched _ _
    · exact Schedules.raiseFault _ _ _
  | biasStrobe => simp only [exec, execBiasStrobe]; split <;> exact Schedules.sched _ _
  | psInit | psRail3v3 | psRail2v5 => exact Schedules.timedPowerState _ _ _
  | psBoost | emitIdle | emitStall | biasIdle | hostIdle => exact Schedules.self _
  | sensorHeld | desClr | desAcc | desCap | hostResetHold | sysReset => exact Schedules.sched _ _
  | fcSendcmdStrobe => exact Schedules.schedFrame _ _

/-- A legal operation schedules its effect. -/
theorem exec_of_legal (i : Instr) (s : State) (h : s.Legal i) :
    exec i s = .next (s.sched (effectOf i s)) := by
  obtain ⟨f, hf⟩ := schedules_of_legal i s h
  have : effectOf i s s.nxt = f s.nxt := by
    show (match exec i s with
      | .next t => t.nxt
      | .fault _ => s.nxt
      | .refused _ => s.nxt) = _
    rw [hf]; rfl
  rw [hf]
  simp only [State.sched, this]

/-- An operation that is not legal stops. -/
theorem exec_of_not_legal (i : Instr) (s t : State) (h : ¬ s.Legal i) : exec i s ≠ .next t := by
  cases i with
  | serLoad x =>
    cases x <;> simp only [State.Legal, ne_eq, not_not] at h <;> simp [exec, execSerLoad, h]
  | hostXfer => simp only [State.Legal, ne_eq, not_not] at h; simp [exec, execHostXfer, h]
  | emitEvenLo | emitEvenHi | emitOddLo | emitOddHi =>
    simp only [State.Legal] at h
    simp [exec, execEmitEvenLo, execEmitEvenHi, execEmitOddLo, execEmitOddHi, pushBridge, wRdy, h]
  | fcSendcmd =>
    simp only [State.Legal, not_lt] at h
    simp [exec, execFcSendcmd, Params.cmdWord?, List.getElem?_eq_none h]
  | _ => exact absurd trivial h

/-- All that an operation changes is what is scheduled. -/
theorem exec_next_sched {i : Instr} {s t : State} (h : exec i s = .next t) :
    t = s.sched (effectOf i s) := by
  by_cases hl : s.Legal i
  · rw [exec_of_legal i s hl] at h; cases h; rfl
  · exact absurd h (exec_of_not_legal i s t hl)

/-- Operations of one cycle, each legal, schedule their effects one after the other. -/
theorem execAll_of_legal (is : List Instr) (s : State) (h : ∀ i ∈ is, s.Legal i) :
    execAll is s = .next (s.sched fun r => is.foldl (fun r i => effectOf i s r) r) := by
  induction is generalizing s with
  | nil => rfl
  | cons i is ih =>
    rw [execAll, exec_of_legal i s (h i (by simp)), andThen_next]
    rw [ih (s.sched (effectOf i s)) (fun j hj => h j (by simp [hj]))]
    rfl

end Sys2Proof.Machine
end

