-- ==== Sys2Proof/Laws/Cycle.lean ====
section
/-! SUPPORT. What a step does: which operations it performs, and that a sensor cycle schedules their effects
and commits them. -/

namespace Sys2Proof.Machine

variable {s : State}

/-! ### Words that decode to operations are performed as those operations -/

theorem runWord_of_decode {w : SelWord} {i : Instr} (h : decode w.bytes = .ok (i, [])) (s : State) :
    runWord w s = exec i s := by
  simp only [runWord, h]

theorem runWords_of_decode : ∀ {ws : List SelWord} {is : List Instr},
    ws.map (fun w => decode w.bytes) = is.map (fun i => .ok (i, [])) → ∀ s, runWords ws s = execAll is s
  | [], [], _, _ => rfl
  | w :: ws, i :: is, h, s => by
    simp only [List.map_cons, List.cons.injEq] at h
    rw [runWords, execAll, runWord_of_decode h.1]
    congr 1
    funext t
    exact runWords_of_decode h.2 t

/-! ### The operations a cycle selects are legal -/

theorem legal_powerOp (s : State) (p : PowerState) : s.Legal (powerOp p) := by cases p <;> trivial

theorem legal_serOp_cmd (s : State) (a c : Bool) : s.Legal (serOp .cmd a (rRdy s.now.cmdQ) c) := by
  cases hq : s.now.cmdQ <;> cases a <;> cases c <;> simp [serOp, rRdy, State.Legal, hq]

theorem legal_serOp_bias (s : State) (a c : Bool) : s.Legal (serOp .bias a (rRdy s.now.biasQ) c) := by
  cases hq : s.now.biasQ <;> cases a <;> cases c <;> simp [serOp, rRdy, State.Legal, hq]

theorem legal_captureOp (s : State) (a b : Bool) : s.Legal (captureOp a b) := by
  cases a <;> cases b <;> trivial

theorem legal_emitOp (s : State) (a : Bool) (e : EmitState) : s.Legal (emitOp a s.bwRdy e) := by
  cases hb : s.bwRdy
  · cases a <;> cases e <;> trivial
  · have : s.now.bridgeQ.length < s.cfg.bridgeDepth := by
      simp only [State.bwRdy, wRdy, Bool.and_eq_true, decide_eq_true_eq] at hb; exact hb.2
    cases a <;> cases e <;> trivial

theorem legal_biasOp (s : State) (a b : Bool) : s.Legal (biasOp a b) := by
  cases a <;> cases b <;> trivial

theorem legal_hostOp (s : State) (a : Bool) : s.Legal (hostOp a s.hostTakes) := by
  cases hb : s.hostTakes
  · cases a <;> trivial
  · have : s.now.bridgeQ ≠ [] := by
      intro hq
      simp [State.hostTakes, State.brRdy, rRdy, hq] at hb
    cases a
    · exact this
    · trivial

/-- A condition of R10 that a valid configuration meets. -/
theorem Params.meets_of_valid {p : Params} (h : p.Valid) (c : ParamCheck) : p.meets c = true := by
  have h' := List.find?_eq_none.mp h c
  have hc : c ∈ ParamCheck.inOrder := by cases c <;> decide
  simpa using h' hc

/-- A valid configuration has its twelve command words. -/
theorem Params.length_cmdWords {p : Params} (h : p.Valid) : p.cmdWords.length = 12 := by
  have := Params.meets_of_valid h .cmdWords
  simp only [Params.meets, Bool.and_eq_true, beq_iff_eq] at this
  exact this.1

theorem legal_frameOp (h : s.cfg.Valid) {st : BitVec 4} {i : Instr} (hi : frameOp st = some i) :
    s.Legal i := by
  have hmem := List.mem_of_getElem? hi
  have hl := Params.length_cmdWords h
  simp only [List.mem_cons, List.not_mem_nil, or_false] at hmem
  rcases hmem with rfl | rfl | rfl | rfl | rfl | rfl | rfl | rfl | rfl
  all_goals first | trivial | (show _ < _; rw [hl]; exact s.now.frame.cmdIdx.isLt)

/-! ### The step of each turn -/

theorem runWord_cfg {w : SelWord} {t : State} (h : runWord w s = .next t) : t.cfg = s.cfg := by
  unfold runWord at h
  split at h <;> first | (rw [exec_next_sched h]; rfl) | (cases h; simp) | cases h

theorem runWords_cfg : ∀ {ws : List SelWord} {s t : State}, runWords ws s = .next t → t.cfg = s.cfg
  | [], _, _, h => by cases h; rfl
  | _ :: _, _, _, h => by
    obtain ⟨u, hu, h⟩ := andThen_eq_next.mp h
    rw [runWords_cfg h, runWord_cfg hu]

/-- A cycle leads to a state under the same configuration. -/
theorem cycle_cfg {t : State} (h : cycle s = .next t) : t.cfg = s.cfg := by
  obtain ⟨u, hu, h⟩ := andThen_eq_next.mp h
  cases h
  have : u.countCycle.cfg = u.cfg := by unfold State.countCycle; split <;> rfl
  simp [this, runWords_cfg hu]

/-- A step is a cycle under the configuration of its state, or the refusal of that configuration. -/
theorem step_eq (s : State) : step s = match s.cfg.firstFailed with
    | some c => .refused (.paramInvalid c)
    | none => cycleUnlessEnded s := by
  have hcfg : ∀ t, cycleUnlessEnded s = .next t → t.cfg = s.cfg := by
    intro t h
    unfold cycleUnlessEnded at h
    split at h <;> first | exact cycle_cfg h | cases h
  unfold step stepUnder
  cases s.cfg.firstFailed with
  | some c => rfl
  | none =>
    rw [State.toBlock_under]
    cases h : cycleUnlessEnded s with
    | next t => simp [← hcfg t h]
    | fault e => rfl
    | refused e => rfl

/-- Under a valid configuration and without a recorded fault a step is a cycle. -/
theorem step_eq_cycle (hv : s.cfg.Valid) (hf : s.now.fault = none) : step s = cycle s := by
  rw [step_eq, hv]
  simp only [cycleUnlessEnded, hf]

/-- A cycle whose words decode to operations that are all legal. -/
theorem cycle_of_decode {is : List Instr}
    (hd : s.fetch.map (fun w => decode w.bytes) = is.map (fun i => .ok (i, [])))
    (hl : ∀ i ∈ is, s.startCycle.Legal i) :
    cycle s = .next (s.startCycle.sched (fun r => is.foldl (fun r i => effectOf i s.startCycle r) r)
      ).countCycle.commit.nextDraw := by
  unfold cycle
  rw [runWords_of_decode hd, execAll_of_legal is _ hl, andThen_next]

/-- A step of the host agent performs its one operation. -/
theorem step_host (hv : s.cfg.Valid) (hf : s.now.fault = none) (ht : s.draw.turn = .host) :
    step s = .next (s.startCycle.sched
      (effectOf (hostOp s.sensorRst s.hostTakes) s.startCycle)).commit.nextDraw := by
  have hfetch : s.fetch = [selHost s] := by simp [State.fetch, ht]
  rw [step_eq_cycle hv hf, cycle_of_decode (is := [hostOp s.sensorRst s.hostTakes])]
  · rw [State.countCycle_of_turn]
    · rfl
    · simp [ht]
  · simp [hfetch, decode_selHost]
  · simp only [List.mem_singleton, forall_eq]; exact legal_hostOp s.startCycle _

/-- A step of the sensor agent during the reset hold performs SENSOR.HELD. -/
theorem step_held (hv : s.cfg.Valid) (hf : s.now.fault = none) (ht : s.draw.turn = .sensor)
    (hr : s.sensorRst = true) :
    step s = .next (s.startCycle.sched (effectOf .sensorHeld s.startCycle)).commit.nextDraw := by
  have hfetch : s.fetch = [selSensor s] := by simp [State.fetch, ht, fetchSensor, hr]
  rw [step_eq_cycle hv hf, cycle_of_decode (is := [.sensorHeld])]
  · rw [State.countCycle_of_held]
    · rfl
    · simpa using hr
  · simp [hfetch, decode_selSensor s hr]
  · simp only [List.mem_singleton, forall_eq]; trivial

/-- The system reset, with or without a recorded fault. -/
theorem step_reset (hv : s.cfg.Valid) (ht : s.draw.turn = .reset) :
    step s = .next (s.startCycle.sched (effectOf .sysReset s.startCycle)).commit.nextDraw := by
  have hfetch : s.fetch = [selEvent s] := by simp [State.fetch, ht]
  have hstep : step s = cycle s := by
    rw [step_eq, hv]
    cases hf : s.now.fault <;> simp only [cycleUnlessEnded, hf, ht]
  rw [hstep, cycle_of_decode (is := [.sysReset])]
  · rw [State.countCycle_of_turn]
    · rfl
    · simp [ht]
  · simp [hfetch, decode_selEvent s ht]
  · simp only [List.mem_singleton, forall_eq]; trivial

theorem State.SensorCycle.sensorRst (h : s.SensorCycle) : s.sensorRst = false := by
  have := h.running
  simp only [State.Running] at this
  simp [State.sensorRst, this]

/-- The words of a sensor cycle out of reset. -/
theorem fetch_sensor (h : s.SensorCycle) :
    s.fetch = [selPs s, selSer .cmd s.now.cmdSer s.now.cmdQ, selSer .bias s.now.biasSer s.now.biasQ,
      selDes s, selEmit s, selFc s, selBias s] := by
  simp [State.fetch, h.turn, fetchSensor, h.sensorRst]

/-- What the seven operations of a sensor cycle schedule, the FrameController's being `i`. -/
def sensorEffect (s : State) (i : Instr) (r : Regs) : Regs :=
  let eff := fun j => effectOf j s.startCycle
  eff (biasOp s.now.inj.active s.now.inj.phase) (eff i
    (eff (emitOp s.now.des.haveData s.bwRdy s.now.des.emitSt)
      (eff (captureOp s.now.latchEn (s.now.des.dcnt == 13))
        (eff (serOp .bias s.now.biasSer.haveWord (rRdy s.now.biasQ) (s.now.biasSer.bitcnt + 1 == 7))
          (eff (serOp .cmd s.now.cmdSer.haveWord (rRdy s.now.cmdQ) (s.now.cmdSer.bitcnt + 1 == 14))
            (eff (powerOp s.now.power.state) r))))))

/-- A sensor cycle out of reset, in a state of the FrameController, schedules the effects of the seven units'
operations and commits them. -/
theorem step_sensor (h : s.SensorCycle) {i : Instr} (hi : frameOp s.now.frame.state = some i) :
    step s = .next (s.startCycle.sched (fun r =>
      (sensorEffect s i r).setCycle (s.now.cycle + 1))).commit.nextDraw := by
  rw [step_eq_cycle h.valid h.noFault, cycle_of_decode (is :=
    [powerOp s.now.power.state,
      serOp .cmd s.now.cmdSer.haveWord (rRdy s.now.cmdQ) (s.now.cmdSer.bitcnt + 1 == 14),
      serOp .bias s.now.biasSer.haveWord (rRdy s.now.biasQ) (s.now.biasSer.bitcnt + 1 == 7),
      captureOp s.now.latchEn (s.now.des.dcnt == 13),
      emitOp s.now.des.haveData s.bwRdy s.now.des.emitSt, i,
      biasOp s.now.inj.active s.now.inj.phase])]
  · rw [State.countCycle_of_sensor]
    · rfl
    · simpa using h.turn
    · simpa using h.sensorRst
  · simp [fetch_sensor h, decode_selPs, decode_selSer, decode_selDes, decode_selEmit, decode_selFc s hi,
      decode_selBias]
  · intro j hj
    simp only [List.mem_cons, List.not_mem_nil, or_false] at hj
    rcases hj with rfl | rfl | rfl | rfl | rfl | rfl | rfl
    · exact legal_powerOp _ _
    · exact legal_serOp_cmd s.startCycle _ _
    · exact legal_serOp_bias s.startCycle _ _
    · exact legal_captureOp _ _ _
    · exact legal_emitOp s.startCycle _ _
    · exact legal_frameOp (s := s.startCycle) h.valid hi
    · exact legal_biasOp _ _ _

/-- An invalid configuration has no run (R132). -/
theorem step_refused {c : ParamCheck} (h : s.cfg.firstFailed = some c) :
    step s = .refused (.paramInvalid c) := by
  rw [step_eq, h]

/-- After a fault an agent's step stops the run (R133). -/
theorem step_ended (hv : s.cfg.Valid) {f : FaultRecord} (hf : s.now.fault = some f)
    (ht : s.draw.turn ≠ .reset) : step s = .fault (.runEnded f.code) := by
  rw [step_eq, hv]
  cases h : s.draw.turn with
  | sensor | host => simp only [cycleUnlessEnded, hf, h]
  | reset => exact absurd h ht

end Sys2Proof.Machine
end

