-- ==== Sys2Proof/Laws/Effects.lean ====
section
/-! SUPPORT. The effect of each operation: what it schedules into registers `r` from the start-of-cycle values
of `s`. -/

namespace Sys2Proof.Machine

variable (s : State) (r : Regs)

theorem effectOf_of_next {i : Instr} {s t : State} {r : Regs} (h : exec i { s with nxt := r } = .next t) :
    effectOf i s r = t.nxt := by
  unfold effectOf; rw [h]

/-- The fault a cycle has scheduled after one more is raised (R134). -/
def raised (r : Regs) (f : FaultRecord) : Option FaultRecord :=
  match r.fault with
  | none => some f
  | some g => some (g.first f)

theorem State.raiseFault_nxt (s : State) (c : FaultCode) (v : Nat) :
    (s.raiseFault c v).nxt = s.nxt.setFault (raised s.nxt ⟨c, s.now.cycle, v⟩) := by
  rw [State.raiseFault_sched]
  simp only [State.sched_nxt, raised]
  cases s.nxt.fault <;> rfl

/-! ### PowerSequencer -/

theorem timedPowerState_nxt (s : State) (d : Nat) (p : PowerState) :
    (timedPowerState d p s).nxt = s.nxt.setPower
      (if d ≤ s.now.power.cnt + 1 then ⟨p, 0⟩ else ⟨s.nxt.power.state, s.now.power.cnt + 1⟩) := by
  unfold timedPowerState
  split <;> rfl

@[simp] theorem effectOf_psInit : effectOf .psInit s r = r.setPower
    (if s.cfg.dInit ≤ s.now.power.cnt + 1 then ⟨.rail3v3, 0⟩ else ⟨r.power.state, s.now.power.cnt + 1⟩) :=
  timedPowerState_nxt { s with nxt := r } _ _

@[simp] theorem effectOf_psRail3v3 : effectOf .psRail3v3 s r = r.setPower
    (if s.cfg.d3v3 ≤ s.now.power.cnt + 1 then ⟨.rail2v5, 0⟩ else ⟨r.power.state, s.now.power.cnt + 1⟩) :=
  timedPowerState_nxt { s with nxt := r } _ _

@[simp] theorem effectOf_psRail2v5 : effectOf .psRail2v5 s r = r.setPower
    (if s.cfg.d2v5 ≤ s.now.power.cnt + 1 then ⟨.boostEnabled, 0⟩
      else ⟨r.power.state, s.now.power.cnt + 1⟩) :=
  timedPowerState_nxt { s with nxt := r } _ _

@[simp] theorem effectOf_psBoost : effectOf .psBoost s r = r := rfl

/-! ### Serializers -/

@[simp] theorem effectOf_serIdle (x : SerInst) : effectOf (.serIdle x) s r = r := by cases x <;> rfl

theorem effectOf_serLoad_cmd {w : CmdWord} {q : List CmdWord} (h : s.now.cmdQ = w :: q) :
    effectOf (.serLoad .cmd) s r =
      (r.setCmdQ r.cmdQ.tail).setCmdSer ⟨shift s.cfg.cmdBitOrder w, true, 1⟩ :=
  effectOf_of_next (t := ({ s with nxt := r } : State).sched fun r =>
    (r.setCmdQ (qPop r.cmdQ)).setCmdSer (serLoaded s.cfg.cmdBitOrder w)) (by simp [exec, execSerLoad, h])

theorem effectOf_serLoad_bias {w : BiasWord} {q : List BiasWord} (h : s.now.biasQ = w :: q) :
    effectOf (.serLoad .bias) s r =
      (r.setBiasQ r.biasQ.tail).setBiasSer ⟨shift s.cfg.biasBitOrder w, true, 1⟩ :=
  effectOf_of_next (t := ({ s with nxt := r } : State).sched fun r =>
    (r.setBiasQ (qPop r.biasQ)).setBiasSer (serLoaded s.cfg.biasBitOrder w)) (by simp [exec, execSerLoad, h])

@[simp] theorem effectOf_serShift_cmd : effectOf (.serShift .cmd) s r = r.setCmdSer
    ⟨shift s.cfg.cmdBitOrder s.now.cmdSer.sr, r.cmdSer.haveWord, s.now.cmdSer.bitcnt + 1⟩ := rfl

@[simp] theorem effectOf_serShift_bias : effectOf (.serShift .bias) s r = r.setBiasSer
    ⟨shift s.cfg.biasBitOrder s.now.biasSer.sr, r.biasSer.haveWord, s.now.biasSer.bitcnt + 1⟩ := rfl

@[simp] theorem effectOf_serLast_cmd : effectOf (.serLast .cmd) s r = r.setCmdSer
    ⟨shift s.cfg.cmdBitOrder s.now.cmdSer.sr, false, 0⟩ := rfl

@[simp] theorem effectOf_serLast_bias : effectOf (.serLast .bias) s r = r.setBiasSer
    ⟨shift s.cfg.biasBitOrder s.now.biasSer.sr, false, 0⟩ := rfl

/-! ### SampleDeserializer -/

@[simp] theorem effectOf_desClr :
    effectOf .desClr s r = r.setDes { r.des with accE := 0, accO := 0, dcnt := 0 } := rfl

@[simp] theorem effectOf_desAcc : effectOf .desAcc s r = r.setDes { r.des with
    accE := accumulate s.now.des.accE s.draw.laneE
    accO := accumulate s.now.des.accO s.draw.laneO
    dcnt := s.now.des.dcnt + 1 } := rfl

@[simp] theorem effectOf_desCap : effectOf .desCap s r = (r.setDes ⟨0, 0, 0,
      rev14 (accumulate s.now.des.accE s.draw.laneE), rev14 (accumulate s.now.des.accO s.draw.laneO), true,
      r.des.emitSt⟩).setOverrunCount
    (if s.overruns then s.now.overrunCount + 1 else r.overrunCount) := by
  show countOverrun _ _ = _
  unfold countOverrun
  show (if s.overruns = true then _ else _) = _
  cases s.overruns <;> rfl

@[simp] theorem effectOf_emitIdle : effectOf .emitIdle s r = r := rfl
@[simp] theorem effectOf_emitStall : effectOf .emitStall s r = r := rfl

theorem pushBridge_nxt {s : State} (h : s.now.bridgeQ.length < s.cfg.bridgeDepth) (b : Byte)
    (f : Deserializer → Deserializer) :
    pushBridge s b f = .next (s.sched fun r => (r.setBridgeQ (r.bridgeQ ++ [b])).setDes (f r.des)) := by
  simp [pushBridge, wRdy, h, qPush]

variable {s} in
theorem effectOf_emitEvenLo (h : s.now.bridgeQ.length < s.cfg.bridgeDepth) :
    effectOf .emitEvenLo s r = (r.setBridgeQ (r.bridgeQ ++ [lowByte s.now.des.outE])).setDes
      { r.des with emitSt := .evenHigh } := by
  unfold effectOf exec execEmitEvenLo
  rw [pushBridge_nxt (s := { s with nxt := r }) h]
  rfl

variable {s} in
theorem effectOf_emitEvenHi (h : s.now.bridgeQ.length < s.cfg.bridgeDepth) :
    effectOf .emitEvenHi s r = (r.setBridgeQ (r.bridgeQ ++ [highByte s.now.des.outE])).setDes
      { r.des with emitSt := .oddLow } := by
  unfold effectOf exec execEmitEvenHi
  rw [pushBridge_nxt (s := { s with nxt := r }) h]
  rfl

variable {s} in
theorem effectOf_emitOddLo (h : s.now.bridgeQ.length < s.cfg.bridgeDepth) :
    effectOf .emitOddLo s r = (r.setBridgeQ (r.bridgeQ ++ [lowByte s.now.des.outO])).setDes
      { r.des with emitSt := .oddHigh } := by
  unfold effectOf exec execEmitOddLo
  rw [pushBridge_nxt (s := { s with nxt := r }) h]
  rfl

variable {s} in
theorem effectOf_emitOddHi (h : s.now.bridgeQ.length < s.cfg.bridgeDepth) :
    effectOf .emitOddHi s r = (r.setBridgeQ (r.bridgeQ ++ [highByte s.now.des.outO])).setDes
      { r.des with
        emitSt := .evenLow
        haveData := if s.now.captures then r.des.haveData else false } := by
  unfold effectOf exec execEmitOddHi
  rw [pushBridge_nxt (s := { s with nxt := r }) h]
  rfl

/-! ### FrameController -/

theorem startBurst_nxt (s : State) : (startBurst s).nxt =
    if s.now.inj.active then s.nxt.setFault (raised s.nxt ⟨.biasRetrigger, s.now.cycle, s.now.inj.cnt⟩)
    else s.nxt.setInj ⟨true, false, 0⟩ := by
  unfold startBurst
  split
  · exact State.raiseFault_nxt _ _ _
  · rfl

/-- The registers after the bias trigger of a wait of `len` cycles. -/
def triggered (s : State) (len : Nat) (r : Regs) : Regs :=
  if s.now.frame.lineCnt + s.cfg.biasToLatch + 1 = len then
    if s.now.inj.active then r.setFault (raised r ⟨.biasRetrigger, s.now.cycle, s.now.inj.cnt⟩)
    else r.setInj ⟨true, false, 0⟩
  else r

/-- The FrameController's registers after a counted cycle of a wait of `len` cycles. -/
def counted (s : State) (len : Nat) (f : Frame) : Frame :=
  if s.now.frame.lineCnt + 1 = len then { f with state := Fc.readLine, lineCnt := 0 }
  else { f with lineCnt := s.now.frame.lineCnt + 1 }

theorem wait_nxt (s : State) (len : Nat) :
    (triggerEarly len (countToLine len s)).nxt =
      triggered s len (s.nxt.setFrame (counted s len s.nxt.frame)) := by
  have hc : countToLine len s = s.sched fun r => r.setFrame (counted s len r.frame) := by
    unfold countToLine counted
    split <;> rfl
  rw [hc]
  unfold triggered
  by_cases h : s.now.frame.lineCnt + s.cfg.biasToLatch + 1 = len
  · rw [if_pos h, triggerEarly]
    refine (congrArg (fun u : State => u.nxt) (if_pos h)).trans ?_
    rw [startBurst_nxt]; rfl
  · rw [if_neg h, triggerEarly]
    exact congrArg (fun u : State => u.nxt) (if_neg h)

@[simp] theorem effectOf_fcPowerup : effectOf .fcPowerup s r =
    if s.now.ready then r.setFrame { r.frame with state := Fc.init, initCnt := 0 } else r := by
  unfold effectOf exec execFcPowerup
  by_cases h : s.now.ready <;> simp [h]

@[simp] theorem effectOf_fcInit : effectOf .fcInit s r =
    if s.now.frame.initCnt + 1 = s.cfg.initCycles then
      r.setFrame { r.frame with state := Fc.sendCmd, initCnt := 0 }
    else r.setFrame { r.frame with initCnt := s.now.frame.initCnt + 1 } := by
  unfold effectOf exec execFcInit
  by_cases h : s.now.frame.initCnt + 1 = s.cfg.initCycles <;> simp [h]

variable {s} in
theorem effectOf_fcSendcmd {w : CmdWord} (h : s.cfg.cmdWord? s.now.frame.cmdIdx = some w) :
    effectOf .fcSendcmd s r =
      if wRdy s.now.cmdQ s.cfg.cmdQDepth then
        (r.setCmdQ (r.cmdQ ++ [w])).setFrame { r.frame with state := Fc.sendCmdStrobe }
      else r.setFault (raised r ⟨.cmdQueueOverflow, s.now.cycle, s.now.frame.cmdIdx⟩) := by
  unfold effectOf exec execFcSendcmd
  simp only [h]
  by_cases hq : wRdy s.now.cmdQ s.cfg.cmdQDepth <;>
    simp [hq, State.raiseFault_nxt, qPush]

@[simp] theorem effectOf_fcSendcmdStrobe :
    effectOf .fcSendcmdStrobe s r = r.setFrame { r.frame with state := Fc.sendCmdAdvance } := rfl

@[simp] theorem effectOf_fcSendcmdAdvance : effectOf .fcSendcmdAdvance s r =
    if s.now.frame.cmdIdx = 11 then r.setFrame { r.frame with state := Fc.waitFrameStart, lineCnt := 0 }
    else r.setFrame { r.frame with state := Fc.sendCmd, cmdIdx := s.now.frame.cmdIdx + 1 } := by
  unfold effectOf exec execFcSendcmdAdvance
  by_cases h : s.now.frame.cmdIdx = 11 <;> simp [h]

@[simp] theorem effectOf_fcWaitFrameStart : effectOf .fcWaitFrameStart s r =
    if s.now.cmdDone then
      triggered s s.cfg.cmdToLineStart (r.setFrame (counted s s.cfg.cmdToLineStart r.frame))
    else r := by
  unfold effectOf exec execFcWaitFrameStart
  by_cases h : s.now.cmdDone
  · simp only [h, if_true]; exact wait_nxt { s with nxt := r } _
  · simp [h]

@[simp] theorem effectOf_fcReadline : effectOf .fcReadline s r = r.setFrame
    (if s.now.frame.lineCnt + 1 = s.cfg.lineCycles then
      if s.now.frame.rowCnt + 1 = s.cfg.rows then
        { r.frame with lineCnt := 0, rowCnt := 0, cmdIdx := 0, state := Fc.interFrame }
      else { r.frame with lineCnt := 0, rowCnt := s.now.frame.rowCnt + 1, state := Fc.waitLine }
    else { r.frame with lineCnt := s.now.frame.lineCnt + 1 }) := by
  unfold effectOf exec execFcReadline
  by_cases h : s.now.frame.lineCnt + 1 = s.cfg.lineCycles
  · by_cases h' : s.now.frame.rowCnt + 1 = s.cfg.rows <;> simp [h, h']
  · simp [h]

@[simp] theorem effectOf_fcWaitline : effectOf .fcWaitline s r =
    triggered s s.cfg.lineStartOffset (r.setFrame (counted s s.cfg.lineStartOffset r.frame)) :=
  wait_nxt { s with nxt := r } _

@[simp] theorem effectOf_fcInterframe : effectOf .fcInterframe s r = r.setFrame
    (if s.now.frame.lineCnt + 1 = s.cfg.interFrameCycles then
      { r.frame with state := Fc.init, lineCnt := 0, initCnt := 0 }
    else { r.frame with lineCnt := s.now.frame.lineCnt + 1 }) := by
  unfold effectOf exec execFcInterframe
  by_cases h : s.now.frame.lineCnt + 1 = s.cfg.interFrameCycles <;> simp [h]

/-! ### Bias injection -/

@[simp] theorem effectOf_biasIdle : effectOf .biasIdle s r = r := rfl

@[simp] theorem effectOf_biasWrite : effectOf .biasWrite s r =
    if wRdy s.now.biasQ s.cfg.biasQDepth then
      (r.setBiasQ (r.biasQ ++ [s.cfg.biasWord])).setInj { r.inj with phase := true }
    else r.setFault (raised r ⟨.biasQueueOverflow, s.now.cycle, s.now.inj.cnt⟩) := by
  unfold effectOf exec execBiasWrite
  by_cases h : wRdy s.now.biasQ s.cfg.biasQDepth <;> simp [h, State.raiseFault_nxt, qPush]

@[simp] theorem effectOf_biasStrobe : effectOf .biasStrobe s r = r.setInj
    (if s.now.inj.cnt + 1 = s.cfg.biasWrites then ⟨false, false, 0⟩
    else { r.inj with phase := false, cnt := s.now.inj.cnt + 1 }) := by
  unfold effectOf exec execBiasStrobe
  by_cases h : s.now.inj.cnt + 1 = s.cfg.biasWrites <;> simp [h]

/-! ### DomainBridge and reset -/

@[simp] theorem effectOf_hostResetHold :
    effectOf .hostResetHold s r = (r.setBridgeQ []).setRstCnt (s.now.rstCnt + 1) := rfl

@[simp] theorem effectOf_hostIdle : effectOf .hostIdle s r = r := rfl

variable {s} in
theorem effectOf_hostXfer {b : Byte} {q : List Byte} (h : s.now.bridgeQ = b :: q) :
    effectOf .hostXfer s r = (r.setBridgeQ r.bridgeQ.tail).setHostStream (r.hostStream ++ [b]) :=
  effectOf_of_next (t := ({ s with nxt := r } : State).sched fun r =>
    (r.setBridgeQ (qPop r.bridgeQ)).setHostStream (r.hostStream ++ [b])) (by simp [exec, execHostXfer, h])

@[simp] theorem effectOf_sensorHeld : effectOf .sensorHeld s r = r.heldInReset := rfl

@[simp] theorem effectOf_sysReset :
    effectOf .sysReset s r = Regs.reset.setHostStream r.hostStream := rfl

end Sys2Proof.Machine
end

