-- ==== Sys2Proof/Laws/PerInstr.lean ====
section
/-! SUPPORT. The statement made of every operation as syntax: its selector value fits its format, its format
lists it, and its encoding is two bytes (spec/30_encoding.md R63, R64). -/

namespace Sys2Proof.Laws.SelectorFits

/-- What holds of every operation as syntax. -/
def Statement (i : Instr) : Prop :=
  i.WellFormed ∧ i.selWord.WellFormed ∧ i.applies i.selWord.sel = true ∧ i ∈ i.format.operations ∧
    (encode i).length = 2

/-- SENSOR.HELD. -/
theorem sensorHeld : Statement .sensorHeld := by unfold Statement; decide

/-- PS.INIT. -/
theorem psInit : Statement .psInit := by unfold Statement; decide

/-- PS.RAIL3V3. -/
theorem psRail3v3 : Statement .psRail3v3 := by unfold Statement; decide

/-- PS.RAIL2V5. -/
theorem psRail2v5 : Statement .psRail2v5 := by unfold Statement; decide

/-- PS.BOOST. -/
theorem psBoost : Statement .psBoost := by unfold Statement; decide

/-- SER.IDLE. -/
theorem serIdle (x : SerInst) : Statement (.serIdle x) := by
  cases x <;> (unfold Statement; decide)

/-- SER.LOAD. -/
theorem serLoad (x : SerInst) : Statement (.serLoad x) := by
  cases x <;> (unfold Statement; decide)

/-- SER.SHIFT. -/
theorem serShift (x : SerInst) : Statement (.serShift x) := by
  cases x <;> (unfold Statement; decide)

/-- SER.LAST. -/
theorem serLast (x : SerInst) : Statement (.serLast x) := by
  cases x <;> (unfold Statement; decide)

/-- DES.CLR. -/
theorem desClr : Statement .desClr := by unfold Statement; decide

/-- DES.ACC. -/
theorem desAcc : Statement .desAcc := by unfold Statement; decide

/-- DES.CAP. -/
theorem desCap : Statement .desCap := by unfold Statement; decide

/-- EMIT.IDLE. -/
theorem emitIdle : Statement .emitIdle := by unfold Statement; decide

/-- EMIT.STALL. -/
theorem emitStall : Statement .emitStall := by unfold Statement; decide

/-- EMIT.EVEN_LO. -/
theorem emitEvenLo : Statement .emitEvenLo := by unfold Statement; decide

/-- EMIT.EVEN_HI. -/
theorem emitEvenHi : Statement .emitEvenHi := by unfold Statement; decide

/-- EMIT.ODD_LO. -/
theorem emitOddLo : Statement .emitOddLo := by unfold Statement; decide

/-- EMIT.ODD_HI. -/
theorem emitOddHi : Statement .emitOddHi := by unfold Statement; decide

/-- FC.POWERUP. -/
theorem fcPowerup : Statement .fcPowerup := by unfold Statement; decide

/-- FC.INIT. -/
theorem fcInit : Statement .fcInit := by unfold Statement; decide

/-- FC.SENDCMD. -/
theorem fcSendcmd : Statement .fcSendcmd := by unfold Statement; decide

/-- FC.SENDCMD_STROBE. -/
theorem fcSendcmdStrobe : Statement .fcSendcmdStrobe := by unfold Statement; decide

/-- FC.SENDCMD_ADVANCE. -/
theorem fcSendcmdAdvance : Statement .fcSendcmdAdvance := by unfold Statement; decide

/-- FC.WAIT_FRAME_START. -/
theorem fcWaitFrameStart : Statement .fcWaitFrameStart := by unfold Statement; decide

/-- FC.READLINE. -/
theorem fcReadline : Statement .fcReadline := by unfold Statement; decide

/-- FC.WAITLINE. -/
theorem fcWaitline : Statement .fcWaitline := by unfold Statement; decide

/-- FC.INTERFRAME. -/
theorem fcInterframe : Statement .fcInterframe := by unfold Statement; decide

/-- BIAS.IDLE. -/
theorem biasIdle : Statement .biasIdle := by unfold Statement; decide

/-- BIAS.WRITE. -/
theorem biasWrite : Statement .biasWrite := by unfold Statement; decide

/-- BIAS.STROBE. -/
theorem biasStrobe : Statement .biasStrobe := by unfold Statement; decide

/-- HOST.RESET_HOLD. -/
theorem hostResetHold : Statement .hostResetHold := by unfold Statement; decide

/-- HOST.IDLE. -/
theorem hostIdle : Statement .hostIdle := by unfold Statement; decide

/-- HOST.XFER. -/
theorem hostXfer : Statement .hostXfer := by unfold Statement; decide

/-- SYS.RESET. -/
theorem sysReset : Statement .sysReset := by unfold Statement; decide

end Sys2Proof.Laws.SelectorFits
end

