-- ==== Sys2Proof/Laws/Units.lean ====
section
/-! SUPPORT. Each unit's operation of a sensor cycle, whichever its selector chooses, as one update of the
registers the unit writes. -/

namespace Sys2Proof.Machine

variable {s : State} {r : Regs}

theorem effect_power (h : r.power = s.now.power) :
    effectOf (powerOp s.now.power.state) s r = r.setPower (Rtl.power s.cfg s.now.power) := by
  cases hp : s.now.power with
  | mk st c =>
    cases st <;> simp [powerOp, Rtl.power, hp, h]
    cases r; simp_all [Regs.setPower]

theorem effect_cmdSer (h : r.cmdSer = s.now.cmdSer) :
    effectOf (serOp .cmd s.now.cmdSer.haveWord (rRdy s.now.cmdQ) (s.now.cmdSer.bitcnt + 1 == 14)) s r =
      (r.setCmdQ (if Rtl.loads s.now.cmdSer s.now.cmdQ then r.cmdQ.tail else r.cmdQ)).setCmdSer
        (Rtl.serializer s.cfg.cmdBitOrder s.now.cmdSer s.now.cmdQ) := by
  cases hw : s.now.cmdSer.haveWord
  · cases hq : s.now.cmdQ with
    | nil => cases r; simp_all [serOp, rRdy, Rtl.loads, Rtl.serializer, Regs.setCmdQ, Regs.setCmdSer]
    | cons w q => simp [serOp, rRdy, Rtl.loads, Rtl.serializer, hw, effectOf_serLoad_cmd _ _ hq]
  · by_cases hb : s.now.cmdSer.bitcnt + 1 = 14
    · cases r; simp_all [serOp, Rtl.loads, Rtl.serializer, Regs.setCmdQ, Regs.setCmdSer]
    · have hf : (s.now.cmdSer.bitcnt + 1 == 14) = false := by simpa using hb
      rw [hf]; clear hf
      cases r; simp_all [serOp, Rtl.loads, Rtl.serializer, Regs.setCmdQ, Regs.setCmdSer]

theorem effect_biasSer (h : r.biasSer = s.now.biasSer) :
    effectOf (serOp .bias s.now.biasSer.haveWord (rRdy s.now.biasQ) (s.now.biasSer.bitcnt + 1 == 7)) s r =
      (r.setBiasQ (if Rtl.loads s.now.biasSer s.now.biasQ then r.biasQ.tail else r.biasQ)).setBiasSer
        (Rtl.serializer s.cfg.biasBitOrder s.now.biasSer s.now.biasQ) := by
  cases hw : s.now.biasSer.haveWord
  · cases hq : s.now.biasQ with
    | nil => cases r; simp_all [serOp, rRdy, Rtl.loads, Rtl.serializer, Regs.setBiasQ, Regs.setBiasSer]
    | cons w q => simp [serOp, rRdy, Rtl.loads, Rtl.serializer, hw, effectOf_serLoad_bias _ _ hq]
  · by_cases hb : s.now.biasSer.bitcnt + 1 = 7
    · cases r; simp_all [serOp, Rtl.loads, Rtl.serializer, Regs.setBiasQ, Regs.setBiasSer]
    · have hf : (s.now.biasSer.bitcnt + 1 == 7) = false := by simpa using hb
      rw [hf]; clear hf
      cases r; simp_all [serOp, Rtl.loads, Rtl.serializer, Regs.setBiasQ, Regs.setBiasSer]

/-- Capture and emission write the SampleDeserializer together. -/
theorem effect_des (h : r.des = s.now.des) (ho : r.overrunCount = s.now.overrunCount) :
    effectOf (emitOp s.now.des.haveData s.bwRdy s.now.des.emitSt) s
      (effectOf (captureOp s.now.latchEn (s.now.des.dcnt == 13)) s r) =
      ((r.setDes (Rtl.deserializer s)).setBridgeQ (r.bridgeQ ++ (Rtl.emitted s).toList)).setOverrunCount
        (if s.now.captures && s.overruns then s.now.overrunCount + 1 else s.now.overrunCount) := by
  have hbw : s.bwRdy = true → s.now.bridgeQ.length < s.cfg.bridgeDepth := by
    intro hb; simp only [State.bwRdy, wRdy, Bool.and_eq_true, decide_eq_true_eq] at hb; exact hb.2
  cases hl : s.now.latchEn <;> cases hd : (s.now.des.dcnt == 13) <;>
  cases hh : s.now.des.haveData <;> cases hb : s.bwRdy <;> cases he : s.now.des.emitSt <;>
  (try have hx := hbw hb) <;>
  cases r <;>
  simp_all [captureOp, emitOp, Rtl.deserializer, Rtl.acc, Rtl.emitted, Rtl.emitSucc, Regs.captures,
    State.overruns, State.emitsOddHigh, effectOf_emitEvenLo, effectOf_emitEvenHi, effectOf_emitOddLo,
    effectOf_emitOddHi, Regs.setDes, Regs.setBridgeQ, Regs.setOverrunCount]

/-- The fault the FrameController's operation raises (R106, R116). -/
def frameFault (s : State) : Option FaultRecord :=
  if s.biasTrigger && s.now.inj.active then some ⟨.biasRetrigger, s.now.cycle, s.now.inj.cnt⟩
  else if (Rtl.cmdPush s).isSome && !wRdy s.now.cmdQ s.cfg.cmdQDepth then
    some ⟨.cmdQueueOverflow, s.now.cycle, s.now.frame.cmdIdx⟩
  else none

/-- The fault the bias injection raises (R114). -/
def biasFault (s : State) : Option FaultRecord :=
  if (Rtl.biasPush s).isSome && !wRdy s.now.biasQ s.cfg.biasQDepth then
    some ⟨.biasQueueOverflow, s.now.cycle, s.now.inj.cnt⟩
  else none

/-- The values of `fc_state` that have an operation, with it. -/
theorem frameOp_cases {st : BitVec 4} {i : Instr} (h : frameOp st = some i) :
    (st = Fc.powerup ∧ i = .fcPowerup) ∨ (st = Fc.init ∧ i = .fcInit) ∨
    (st = Fc.sendCmd ∧ i = .fcSendcmd) ∨ (st = Fc.sendCmdStrobe ∧ i = .fcSendcmdStrobe) ∨
    (st = Fc.sendCmdAdvance ∧ i = .fcSendcmdAdvance) ∨ (st = Fc.waitFrameStart ∧ i = .fcWaitFrameStart) ∨
    (st = Fc.readLine ∧ i = .fcReadline) ∨ (st = Fc.waitLine ∧ i = .fcWaitline) ∨
    (st = Fc.interFrame ∧ i = .fcInterframe) := by
  revert i h
  revert st
  decide

theorem cmdWord?_of_valid (h : s.cfg.Valid) : ∃ w, s.cfg.cmdWord? s.now.frame.cmdIdx = some w := by
  have hl := Params.length_cmdWords h
  have : (s.now.frame.cmdIdx : Nat) < s.cfg.cmdWords.length := by rw [hl]; exact s.now.frame.cmdIdx.isLt
  exact ⟨_, by rw [Params.cmdWord?, List.getElem?_eq_getElem this, Option.map_some]⟩

/-- The FrameController's operation, whichever `fc_state` selects: its registers, the push to `cmd_q` and the
start of a burst, or a fault. -/
theorem effect_frame (hv : s.cfg.Valid) {i : Instr} (hi : frameOp s.now.frame.state = some i)
    (h : r.frame = s.now.frame) :
    (frameFault s = none → effectOf i s r =
      ((r.setFrame (Rtl.frame s)).setCmdQ (r.cmdQ ++ (Rtl.cmdPush s).toList)).setInj
        (if s.biasTrigger then ⟨true, false, 0⟩ else r.inj)) ∧
    (∀ f, frameFault s = some f → (effectOf i s r).fault = raised r f) := by
  obtain ⟨w, hw⟩ := cmdWord?_of_valid (s := s) hv
  rcases frameOp_cases hi with ⟨hs, rfl⟩ | ⟨hs, rfl⟩ | ⟨hs, rfl⟩ | ⟨hs, rfl⟩ | ⟨hs, rfl⟩ | ⟨hs, rfl⟩ |
    ⟨hs, rfl⟩ | ⟨hs, rfl⟩ | ⟨hs, rfl⟩
  · -- Powerup
    cases r
    cases hr : s.now.ready <;>
    simp_all [frameFault, Rtl.cmdPush, State.biasTrigger, Rtl.frame, Rtl.fcState, Rtl.lineEnds, Rtl.frameEnds,
      Rtl.counts, Rtl.lineLength, Regs.setFrame, Regs.setCmdQ, Regs.setInj]
    rw [← hs]
  · -- Init
    cases r
    by_cases hc : s.now.frame.initCnt + 1 = s.cfg.initCycles <;>
    simp_all [frameFault, Rtl.cmdPush, State.biasTrigger, Rtl.frame, Rtl.fcState, Rtl.lineEnds, Rtl.frameEnds,
      Rtl.counts, Rtl.lineLength, Regs.setFrame, Regs.setCmdQ, Regs.setInj]
  · -- SendCmd
    cases r
    cases hq : wRdy s.now.cmdQ s.cfg.cmdQDepth <;>
    simp_all [frameFault, Rtl.cmdPush, State.biasTrigger, Rtl.frame, Rtl.fcState, Rtl.lineEnds, Rtl.frameEnds,
      Rtl.counts, Rtl.lineLength, Regs.setFrame, Regs.setCmdQ, Regs.setInj, effectOf_fcSendcmd _ hw]
  · -- SendCmdStrobe
    cases r
    simp_all [frameFault, Rtl.cmdPush, State.biasTrigger, Rtl.frame, Rtl.fcState, Rtl.lineEnds, Rtl.frameEnds,
      Rtl.counts, Rtl.lineLength, Regs.setFrame, Regs.setCmdQ, Regs.setInj]
  · -- SendCmdAdvance
    cases r
    by_cases hc : s.now.frame.cmdIdx = 11 <;>
    simp_all [frameFault, Rtl.cmdPush, State.biasTrigger, Rtl.frame, Rtl.fcState, Rtl.lineEnds, Rtl.frameEnds,
      Rtl.counts, Rtl.lineLength, Regs.setFrame, Regs.setCmdQ, Regs.setInj]
  · -- WaitFrameStart
    cases r
    cases hd : s.now.cmdDone
    · simp_all [frameFault, Rtl.cmdPush, State.biasTrigger, Rtl.frame, Rtl.fcState, Rtl.lineEnds,
        Rtl.frameEnds, Rtl.counts, Rtl.lineLength, Regs.setFrame, Regs.setCmdQ, Regs.setInj]
      rw [← hs]
    · by_cases hc : s.now.frame.lineCnt + 1 = s.cfg.cmdToLineStart <;>
      by_cases hb : s.now.frame.lineCnt + s.cfg.biasToLatch + 1 = s.cfg.cmdToLineStart <;>
      cases ha : s.now.inj.active <;>
      simp_all [frameFault, Rtl.cmdPush, State.biasTrigger, Rtl.frame, Rtl.fcState, Rtl.lineEnds,
        Rtl.frameEnds, Rtl.counts, Rtl.lineLength, triggered, counted, raised, Regs.setFrame, Regs.setCmdQ,
        Regs.setInj]
  · -- ReadLine
    cases r
    by_cases hc : s.now.frame.lineCnt + 1 = s.cfg.lineCycles <;>
    by_cases hb : s.now.frame.rowCnt + 1 = s.cfg.rows <;>
    simp_all [frameFault, Rtl.cmdPush, State.biasTrigger, Rtl.frame, Rtl.fcState, Rtl.lineEnds, Rtl.frameEnds,
      Rtl.counts, Rtl.lineLength, Regs.setFrame, Regs.setCmdQ, Regs.setInj]
  · -- WaitLine
    cases r
    by_cases hc : s.now.frame.lineCnt + 1 = s.cfg.lineStartOffset <;>
    by_cases hb : s.now.frame.lineCnt + s.cfg.biasToLatch + 1 = s.cfg.lineStartOffset <;>
    cases ha : s.now.inj.active <;>
    simp_all [frameFault, Rtl.cmdPush, State.biasTrigger, Rtl.frame, Rtl.fcState, Rtl.lineEnds,
      Rtl.frameEnds, Rtl.counts, Rtl.lineLength, triggered, counted, raised, Regs.setFrame, Regs.setCmdQ,
      Regs.setInj]
  · -- InterFrame
    cases r
    by_cases hc : s.now.frame.lineCnt + 1 = s.cfg.interFrameCycles <;>
    simp_all [frameFault, Rtl.cmdPush, State.biasTrigger, Rtl.frame, Rtl.fcState, Rtl.lineEnds, Rtl.frameEnds,
      Rtl.counts, Rtl.lineLength, Regs.setFrame, Regs.setCmdQ, Regs.setInj]

/-- The bias injection's operation, whichever its registers select: its registers and the push to `bias_q`, or
a fault. -/
theorem effect_bias (h : s.now.inj.active = true → r.inj = s.now.inj) :
    (biasFault s = none → effectOf (biasOp s.now.inj.active s.now.inj.phase) s r =
      (r.setBiasQ (r.biasQ ++ (Rtl.biasPush s).toList)).setInj
        (if s.now.inj.active then Rtl.injector s else r.inj)) ∧
    (∀ f, biasFault s = some f →
      (effectOf (biasOp s.now.inj.active s.now.inj.phase) s r).fault = raised r f) := by
  cases ha : s.now.inj.active <;> cases hp : s.now.inj.phase <;>
    by_cases hc : s.now.inj.cnt + 1 = s.cfg.biasWrites <;>
    cases hq : wRdy s.now.biasQ s.cfg.biasQDepth <;>
    cases r <;>
    simp_all [biasOp, biasFault, Rtl.biasPush, Rtl.injector, Regs.setBiasQ, Regs.setInj]

/-- A bias operation that raises nothing leaves the fault of the cycle as it is. -/
theorem effect_bias_fault (h : biasFault s = none) :
    (effectOf (biasOp s.now.inj.active s.now.inj.phase) s r).fault = r.fault := by
  cases ha : s.now.inj.active <;> cases hp : s.now.inj.phase <;>
    cases hq : wRdy s.now.biasQ s.cfg.biasQDepth <;>
    simp_all [biasOp, biasFault, Rtl.biasPush]

end Sys2Proof.Machine
end

