-- ==== Sys2Proof/Laws/Sensor.lean ====
section
/-! SUPPORT. What a step does to the registers: a sensor cycle gives each its next value (`Rtl.next`), and the
inversion of a step into its four kinds. -/

namespace Sys2Proof.Machine

variable {s : State}

/-- The fault of a cycle is the FrameController's, else the bias injection's (R134). -/
theorem rtl_fault_eq {i : Instr} (hi : frameOp s.now.frame.state = some i) : Rtl.fault s =
   match frameFault s with | some f => some f | none => biasFault s := by
  have : ¬ 9 ≤ s.now.frame.state.toNat := by
    rw [← frameOp_eq_none_iff, hi]; simp
  simp only [Rtl.fault, this, if_false, frameFault, biasFault]
  split
  · rfl
  · split <;> rfl

/-- A sensor cycle at a boundary, in a state of the FrameController. -/
theorem step_rtl_settled (hset : s.startCycle = s) (h : s.SensorCycle) {i} (hi : frameOp s.now.frame.state = some i) :
    step s = .next ({ s with now := Rtl.next s, nxt := Rtl.next s } : State).nextDraw := by
  rw [step_sensor h hi]
  rw [hset]
  unfold sensorEffect
  rw [hset]
  congr 2
  have hnxt : s.nxt = s.now := by rw [← hset]; rfl
  simp only [State.sched, hnxt]
  have e1 := effect_power (s := s) (r := s.now) rfl
  rw [e1]
  set r1 := s.now.setPower (Rtl.power s.cfg s.now.power) with hr1
  have e2 := effect_cmdSer (s := s) (r := r1) (by simp [hr1])
  rw [e2]
  set r2 := (r1.setCmdQ (if Rtl.loads s.now.cmdSer s.now.cmdQ = true then r1.cmdQ.tail else r1.cmdQ)).setCmdSer
    (Rtl.serializer s.cfg.cmdBitOrder s.now.cmdSer s.now.cmdQ) with hr2
  have e3 := effect_biasSer (s := s) (r := r2) (by simp [hr2, hr1])
  rw [e3]
  set r3 := (r2.setBiasQ (if Rtl.loads s.now.biasSer s.now.biasQ = true then r2.biasQ.tail else r2.biasQ)).setBiasSer
    (Rtl.serializer s.cfg.biasBitOrder s.now.biasSer s.now.biasQ) with hr3
  have e4 := effect_des (s := s) (r := r3) (by simp [hr3, hr2, hr1]) (by simp [hr3, hr2, hr1])
  rw [e4]
  generalize hr4 : ((r3.setDes (Rtl.deserializer s)).setBridgeQ
              (r3.bridgeQ ++ (Rtl.emitted s).toList)).setOverrunCount
          (if (s.now.captures && s.overruns) = true then s.now.overrunCount + 1
          else s.now.overrunCount) = r4
  have hframe4 : r4.frame = s.now.frame := by simp [← hr4, hr3, hr2, hr1]
  have hinj4 : r4.inj = s.now.inj := by simp [← hr4, hr3, hr2, hr1]
  have hfault4 : r4.fault = none := by simp [← hr4, hr3, hr2, hr1, h.noFault]
  obtain ⟨fA, fB⟩ := effect_frame (s := s) (r := r4) h.valid hi hframe4
  cases hF : frameFault s with
  | some f =>
    have hf := fB f hF
    have hrf : Rtl.fault s = some f := by rw [rtl_fault_eq hi]; rw [show frameFault s = some f from hF]
    rw [State.commit_of_some (f := f)]
    · simp only [Rtl.next, hrf]; rfl
    · simp only [Regs.setCycle_fault]
      cases hB : biasFault s with
      | none =>
        refine (effect_bias_fault (s := s) hB).trans ?_
        rw [hf, raised, hfault4]
      | some g =>
        have hb : (∃ a b, f = ⟨.biasRetrigger, a, b⟩) ∨ (∃ a b, f = ⟨.cmdQueueOverflow, a, b⟩) := by
          simp only [frameFault] at hF
          split at hF
          · left; cases hF; exact ⟨_, _, rfl⟩
          · split at hF
            · right; cases hF; exact ⟨_, _, rfl⟩
            · cases hF
        have hg : ∃ a b, g = ⟨.biasQueueOverflow, a, b⟩ := by
          simp only [biasFault] at hB
          split at hB
          · cases hB; exact ⟨_, _, rfl⟩
          · cases hB
        have hact : s.now.inj.active = true := by
          simp only [biasFault, Rtl.biasPush] at hB
          by_contra hne
          simp [hne] at hB
        obtain ⟨a, b, rfl⟩ := hg
        -- inj unchanged since the frame op faulted or did not touch inj
        have hinj : (effectOf i s r4).inj = s.now.inj := by
          obtain ⟨w, hw⟩ := cmdWord?_of_valid (s := s) h.valid
          rcases frameOp_cases hi with ⟨hs, rfl⟩ | ⟨hs, rfl⟩ | ⟨hs, rfl⟩ | ⟨hs, rfl⟩ | ⟨hs, rfl⟩ | ⟨hs, rfl⟩ |
    ⟨hs, rfl⟩ | ⟨hs, rfl⟩ | ⟨hs, rfl⟩ <;>
           simp [effectOf_fcSendcmd _ hw, triggered, hact, hinj4] <;> (try split) <;> (try split) <;> simp [hinj4]
        have hgg := (effect_bias (s := s) (r := effectOf i s r4) (fun _ => hinj)).2 _ hB
        refine hgg.trans ?_
        rw [raised, hf, raised, hfault4]
        rcases hb with ⟨a, b, rfl⟩ | ⟨a, b, rfl⟩ <;> rfl
  | none =>
    have hf := fA hF
    rw [hf]
    set r5 := ((r4.setFrame (Rtl.frame s)).setCmdQ (r4.cmdQ ++ (Rtl.cmdPush s).toList)).setInj
          (if s.biasTrigger then ⟨true, false, 0⟩ else r4.inj) with hr5
    have htrig : s.now.inj.active = true → s.biasTrigger = false := by
      intro ha
      by_contra hne
      simp only [Bool.not_eq_false] at hne
      have : frameFault s ≠ none := by
        have hne' : s.biasTrigger = true := hne
        simp [frameFault, hne', ha]
      exact this hF
    have hinj5 : s.now.inj.active = true → r5.inj = s.now.inj := by
      intro ha
      have : s.biasTrigger = false := htrig ha
      simp [hr5, this, hinj4]
    obtain ⟨gA, gB⟩ := effect_bias (s := s) (r := r5) hinj5
    cases hB : biasFault s with
    | some g =>
      have hrf : Rtl.fault s = some g := by
        rw [rtl_fault_eq hi]; rw [show frameFault s = none from hF]; exact hB
      rw [State.commit_of_some (f := g)]
      · simp only [Rtl.next, hrf]; rfl
      · simp only [Regs.setCycle_fault]
        refine (gB g hB).trans ?_
        rw [raised]
        have : r5.fault = none := by simp [hr5, hfault4]
        rw [this]
    | none =>
      have hrf : Rtl.fault s = none := by
        rw [rtl_fault_eq hi]; rw [show frameFault s = none from hF]; exact hB
      have hg := gA hB
      have hfin : (effectOf (biasOp s.now.inj.active s.now.inj.phase) s r5).setCycle (s.now.cycle + 1)
          = Rtl.regs s := by
        rw [hg]
        simp only [Rtl.regs, hr5, ← hr4, hr3, hr2, hr1, Rtl.queue]
        have hi' : (if s.now.inj.active = true then Rtl.injector s else
            if s.biasTrigger = true then (⟨true, false, 0⟩ : Injector) else s.now.inj) = Rtl.injector s := by
          cases ha : s.now.inj.active
          · simp [Rtl.injector, ha]
          · simp
        simp only [Regs.setCycle, Regs.setPower, Regs.setInj, Regs.setBiasQ, Regs.setFrame, Regs.setCmdQ,
          Regs.setOverrunCount, Regs.setBridgeQ, Regs.setDes, Regs.setBiasSer, Regs.setCmdSer]
        rw [hi']
        have := h.noFault
        congr 1
      rw [State.commit_of_none]
      · simp only [Rtl.next, hrf]
        rw [hfin]; rfl
      · simp only []; rw [hfin]; rfl

/-- A sensor cycle in a state of the FrameController. -/
theorem step_rtl_legal (h : s.SensorCycle) {i} (hi : frameOp s.now.frame.state = some i) :
    step s = .next ({ s with now := Rtl.next s, nxt := Rtl.next s } : State).nextDraw :=
  step_rtl_settled (s := s.startCycle) rfl ⟨h.valid, h.noFault, h.turn, h.running⟩ hi

/-- A raised fault is scheduled. -/
theorem State.raiseFault_eq_raised (s : State) (c : FaultCode) (v : Nat) :
    s.raiseFault c v = s.sched fun r => r.setFault (raised r ⟨c, s.now.cycle, v⟩) := by
  rw [State.raiseFault_sched]
  congr 1
  funext r
  simp only [raised]
  cases r.fault <;> rfl

/-- The operations that can raise a fault or clear it. -/
def touchesFault : Instr → Bool
  | .fcSendcmd | .fcWaitFrameStart | .fcWaitline | .biasWrite | .sysReset => true
  | .sensorHeld | .psInit | .psRail3v3 | .psRail2v5 | .psBoost | .serIdle _ | .serLoad _ | .serShift _
  | .serLast _ | .desClr | .desAcc | .desCap | .emitIdle | .emitStall | .emitEvenLo | .emitEvenHi
  | .emitOddLo | .emitOddHi | .fcPowerup | .fcInit | .fcSendcmdStrobe | .fcSendcmdAdvance | .fcReadline
  | .fcInterframe | .biasIdle | .biasStrobe | .hostResetHold | .hostIdle | .hostXfer => false

/-- No other operation touches the fault of the cycle. -/
theorem effectOf_fault {i : Instr} (h : touchesFault i = false) (s : State) (r : Regs) :
    (effectOf i s r).fault = r.fault := by
  cases i with
  | fcSendcmd | fcWaitFrameStart | fcWaitline | biasWrite | sysReset => simp [touchesFault] at h
  | serLoad x =>
    cases x
    · cases hq : s.now.cmdQ with
      | nil => simp [effectOf, exec, execSerLoad, hq]
      | cons w q => simp [effectOf_serLoad_cmd _ _ hq]
    · cases hq : s.now.biasQ with
      | nil => simp [effectOf, exec, execSerLoad, hq]
      | cons w q => simp [effectOf_serLoad_bias _ _ hq]
  | hostXfer =>
    cases hq : s.now.bridgeQ with
    | nil => simp [effectOf, exec, execHostXfer, hq]
    | cons b q => simp [effectOf_hostXfer _ hq]
  | emitEvenLo | emitEvenHi | emitOddLo | emitOddHi =>
    by_cases hq : s.now.bridgeQ.length < s.cfg.bridgeDepth
    · simp [effectOf_emitEvenLo, effectOf_emitEvenHi, effectOf_emitOddLo, effectOf_emitOddHi, hq]
    · simp [effectOf, exec, execEmitEvenLo, execEmitEvenHi, execEmitOddLo, execEmitOddHi, pushBridge, wRdy, hq]
  | serShift x | serLast x => cases x <;> rfl
  | fcPowerup => rw [effectOf_fcPowerup]; split <;> rfl
  | fcInit => rw [effectOf_fcInit]; split <;> rfl
  | fcSendcmdAdvance => rw [effectOf_fcSendcmdAdvance]; split <;> rfl
  | _ => simp [Regs.heldInReset]

/-- A legal operation schedules its effect whatever the cycle has scheduled before. -/
theorem exec_sched {i : Instr} (h : s.Legal i) (f : Regs → Regs) :
    exec i (s.sched f) = .next ((s.sched f).sched (effectOf i s)) := exec_of_legal i (s.sched f) h

/-- A sensor cycle whose `fc_state` is reserved records ILLEGAL_STATE, whatever else happens in it (R66, R131,
R134). -/
theorem step_illegal (h : s.SensorCycle) (hn : frameOp s.now.frame.state = none) :
    step s = .next ({ s with
      now := s.now.setFault (some ⟨.illegalState, s.now.cycle, s.now.frame.state.toNat⟩)
      nxt := s.now.setFault (some ⟨.illegalState, s.now.cycle, s.now.frame.state.toNat⟩) } : State).nextDraw := by
  rw [step_eq_cycle h.valid h.noFault]
  unfold cycle
  rw [fetch_sensor h]
  simp only [runWords, runWord_of_decode (decode_selPs s), runWord_of_decode (decode_selSer _ _ _),
    runWord_of_decode (decode_selDes s), runWord_of_decode (decode_selEmit s),
    runWord_of_decode (decode_selBias s)]
  have l1 : s.startCycle.Legal (powerOp s.now.power.state) := legal_powerOp _ _
  have l2 : s.startCycle.Legal _ := legal_serOp_cmd s.startCycle s.now.cmdSer.haveWord (s.now.cmdSer.bitcnt + 1 == 14)
  have l3 : s.startCycle.Legal _ := legal_serOp_bias s.startCycle s.now.biasSer.haveWord (s.now.biasSer.bitcnt + 1 == 7)
  have l4 : s.startCycle.Legal _ := legal_captureOp s.startCycle s.now.latchEn (s.now.des.dcnt == 13)
  have l5 : s.startCycle.Legal _ := legal_emitOp s.startCycle s.now.des.haveData s.now.des.emitSt
  have l7 : s.startCycle.Legal _ := legal_biasOp s.startCycle s.now.inj.active s.now.inj.phase
  rw [exec_of_legal _ _ l1, andThen_next]
  have x2 := exec_sched l2
  have x3 := exec_sched l3
  have x4 := exec_sched l4
  have x5 := exec_sched l5
  have x7 := exec_sched l7
  simp only [State.startCycle_now] at x2 x3
  have hb : s.startCycle.bwRdy = s.bwRdy := rfl
  rw [hb] at x5
  rw [x2, andThen_next, State.sched_sched, x3, andThen_next, State.sched_sched, x4, andThen_next, State.sched_sched, x5, andThen_next, State.sched_sched]
  simp only [runWord, decode_selFc_reserved s hn, andThen_next]
  have hc : ∀ f, (s.startCycle.sched f).countCycle =
      (s.startCycle.sched f).sched (·.setCycle (s.now.cycle + 1)) := fun f =>
    State.countCycle_of_sensor (s := s.startCycle.sched f) h.turn h.sensorRst
  rw [State.raiseFault_eq_raised, State.sched_sched, x7, andThen_next, andThen_next, State.sched_sched, hc,
    State.sched_sched]
  have hp : touchesFault (powerOp s.now.power.state) = false := by cases s.now.power.state <;> rfl
  have hs : ∀ x a b c, touchesFault (serOp x a b c) = false := by intro x a b c; cases a <;> cases b <;> cases c <;> rfl
  have hd : ∀ a b, touchesFault (captureOp a b) = false := by intro a b; cases a <;> cases b <;> rfl
  have he : ∀ a b c, touchesFault (emitOp a b c) = false := by intro a b c; cases a <;> cases b <;> cases c <;> rfl
  rw [State.commit_of_some (f := ⟨.illegalState, s.now.cycle, s.now.frame.state.toNat⟩)]
  · rfl
  · simp only [State.sched_nxt, Function.comp, Regs.setCycle_fault]
    generalize hr : (effectOf (emitOp s.now.des.haveData s.bwRdy s.now.des.emitSt) _ _) = r
    have hrf : r.fault = none := by
      rw [← hr]
      simp only [effectOf_fault (he _ _ _), effectOf_fault (hd _ _), effectOf_fault (hs _ _ _ _), effectOf_fault hp]
      exact h.noFault
    have hbias : ∀ q : Regs, (effectOf (biasOp s.now.inj.active s.now.inj.phase) s.startCycle q).fault = q.fault ∨
        ∃ a b, (effectOf (biasOp s.now.inj.active s.now.inj.phase) s.startCycle q).fault = raised q ⟨.biasQueueOverflow, a, b⟩ := by
      intro q
      cases s.now.inj.active <;> cases s.now.inj.phase
      · left; rfl
      · left; rfl
      · by_cases hq : wRdy s.now.biasQ s.cfg.biasQDepth
        · left; simp [biasOp, hq]
        · right; exact ⟨s.now.cycle, s.now.inj.cnt, by simp [biasOp, hq]⟩
      · left; simp [biasOp]
    have hraise : raised r ⟨.illegalState, s.now.cycle, s.now.frame.state.toNat⟩ = some ⟨.illegalState, s.now.cycle, s.now.frame.state.toNat⟩ := by
      simp [raised, hrf]
    rcases hbias (r.setFault (raised r ⟨.illegalState, s.now.cycle, s.now.frame.state.toNat⟩)) with hx | ⟨a, b, hx⟩
    · exact hx.trans hraise
    · refine hx.trans ?_
      simp only [raised, hrf]
      rfl

/-- A sensor cycle out of reset gives every register its next value, or records a fault. -/
theorem step_rtl (h : s.SensorCycle) : step s = .next ({ s with now := Rtl.next s, nxt := Rtl.next s } : State).nextDraw := by
  cases hf : frameOp s.now.frame.state with
  | some i => exact step_rtl_legal h hf
  | none =>
    rw [step_illegal h hf]
    have : 9 ≤ s.now.frame.state.toNat := (frameOp_eq_none_iff _).1 hf
    simp only [Rtl.next, Rtl.fault, this, if_true]
    rfl

/-- A sensor cycle without a fault gives the next values. -/
theorem next_of_none (h : Rtl.fault s = none) : Rtl.next s = Rtl.regs s := by
  simp only [Rtl.next, h]

/-- A sensor cycle with a fault only records it. -/
theorem next_of_some {f : FaultRecord} (h : Rtl.fault s = some f) :
    Rtl.next s = { s.now with fault := some f } := by
  simp only [Rtl.next, h]

/-- The fault recorded after a sensor cycle is the fault of the cycle. -/
theorem next_fault (s : State) : (Rtl.next s).fault = Rtl.fault s := by
  unfold Rtl.next
  split <;> simp_all [Rtl.regs]

/-- The registers after a host cycle (R121 to R123). -/
theorem host_effect (s : State) : effectOf (hostOp s.sensorRst s.hostTakes) s s.now =
    if s.sensorRst then { s.now with bridgeQ := [], rstCnt := s.now.rstCnt + 1 }
    else if s.hostTakes then
      { s.now with bridgeQ := s.now.bridgeQ.tail, hostStream := s.now.hostStream ++ s.now.bridgeQ.take 1 }
    else s.now := by
  cases hr : s.sensorRst
  · cases ht : s.hostTakes
    · rfl
    · cases hq : s.now.bridgeQ with
      | nil => simp [State.hostTakes, State.brRdy, rRdy, hq] at ht
      | cons b q => simp [hostOp, effectOf_hostXfer _ hq, hq, Regs.setBridgeQ, Regs.setHostStream]
  · cases s.hostTakes <;> rfl

/-- Everything a step that answers a next state can be: the system reset, a host cycle, a held sensor cycle or a
sensor cycle of the seven units; it changes no configuration, leaves nothing scheduled and uses up one input. -/
theorem step_inv {t : State} (h : step s = .next t) :
    s.cfg.Valid ∧ t.cfg = s.cfg ∧ t.nxt = t.now ∧ t.script = s.script.tail ∧ t.tick = s.tick + 1 ∧
    ((s.draw.turn = .reset ∧ t.now = Regs.reset.setHostStream s.now.hostStream) ∨
     (s.draw.turn = .host ∧ s.now.fault = none ∧
        t.now = effectOf (hostOp s.sensorRst s.hostTakes) s s.now) ∨
     (s.draw.turn = .sensor ∧ s.now.fault = none ∧ s.sensorRst = true ∧ t.now = s.now.heldInReset) ∨
     (s.SensorCycle ∧ t.now = Rtl.next s)) := by
  cases hv : s.cfg.firstFailed with
  | some c => rw [step_refused hv] at h; cases h
  | none =>
    cases ht : s.draw.turn with
    | reset =>
      rw [step_reset hv ht] at h
      rw [State.commit_of_none _ rfl] at h
      cases h
      exact ⟨hv, rfl, rfl, rfl, rfl, .inl ⟨rfl, rfl⟩⟩
    | host =>
      cases hf : s.now.fault with
      | some f => rw [step_ended hv hf (by simp [ht])] at h; cases h
      | none =>
        rw [step_host hv hf ht] at h
        have hnf : (effectOf (hostOp s.sensorRst s.hostTakes) s.startCycle s.startCycle.nxt).fault = none := by
          have : touchesFault (hostOp s.sensorRst s.hostTakes) = false := by
            cases s.sensorRst <;> cases s.hostTakes <;> rfl
          rw [effectOf_fault this]; exact hf
        rw [State.commit_of_none _ hnf] at h
        cases h
        exact ⟨hv, rfl, rfl, rfl, rfl, .inr (.inl ⟨rfl, rfl, rfl⟩)⟩
    | sensor =>
      cases hf : s.now.fault with
      | some f => rw [step_ended hv hf (by simp [ht])] at h; cases h
      | none =>
        cases hr : s.sensorRst with
        | true =>
          rw [step_held hv hf ht hr, State.commit_of_none] at h
          · cases h
            exact ⟨hv, rfl, rfl, rfl, rfl, .inr (.inr (.inl ⟨rfl, rfl, rfl, rfl⟩))⟩
          · exact hf
        | false =>
          have hc : s.SensorCycle := ⟨hv, hf, ht, by simpa [State.sensorRst] using hr⟩
          rw [step_rtl hc] at h
          cases h
          exact ⟨hv, rfl, rfl, rfl, rfl, .inr (.inr (.inr ⟨hc, rfl⟩))⟩

end Sys2Proof.Machine
end

