-- ==== Sys2Proof/Laws/Registers.lean ====
section
/-! SUPPORT. What the registers are after a step, in the form the statements about one register need. -/

namespace Sys2Proof.Machine

variable {s t : State}

/-! ### Which steps change what -/

/-- A fault-free sensor cycle gives every register its next value. -/
theorem SensorStep.regs (h : SensorStep s t) : t.now = Rtl.regs s ∧ Rtl.fault s = none ∧ t.cfg = s.cfg := by
  have hs := step_rtl h.cycle
  rw [h.next] at hs
  injection hs with ht
  have hn : t.now = Rtl.next s := by rw [ht]; rfl
  have hf : Rtl.fault s = none := by rw [← next_fault, ← hn]; exact h.noFault
  exact ⟨by rw [hn, next_of_none hf], hf, by rw [ht]; rfl⟩

/-- A sensor cycle that meets no fault is a fault-free step to the next values. -/
theorem SensorCycle.step_of_none (h : s.SensorCycle) (hf : Rtl.fault s = none) :
    SensorStep s (s.setRegs (Rtl.regs s)).nextDraw :=
  ⟨h, by rw [step_rtl h, next_of_none hf]; rfl, rfl⟩

/-- Out of reset `sensor_rst` is 0. -/
theorem sensorRst_of_running (h : s.Running) : s.sensorRst = false := by
  simpa [State.sensorRst] using h

/-- Out of reset the pins are those of a running sensor domain. -/
theorem pins_of_running (h : s.Running) : s.pins = Pins.running s := by
  unfold State.pins; rw [sensorRst_of_running h]; rfl

/-- Out of reset the signals are those of a running sensor domain. -/
theorem signals_of_running (h : s.Running) : s.signals = Signals.running s.now := by
  unfold State.signals; rw [sensorRst_of_running h]; rfl

/-- `ready` is seen outside as the rail `en_boost` (R24). -/
theorem enBoost_eq_ready : s.pins.enBoost = s.signals.ready := by
  unfold State.pins State.signals; split <;> rfl

/-- Only the system reset leads back into reset. -/
theorem running_of_step (h : step s = .next t) (ht : s.draw.turn ≠ .reset) (hr : s.Running) : t.Running := by
  obtain ⟨-, hcfg, -, -, -, hx⟩ := step_inv h
  unfold State.Running at *
  rw [hcfg]
  rcases hx with ⟨h, -⟩ | ⟨-, -, hn⟩ | ⟨-, -, h, -⟩ | ⟨-, hn⟩
  · exact absurd h ht
  · rw [hn, host_effect, if_neg (by simpa [State.sensorRst] using hr)]
    split <;> exact hr
  · simp [State.sensorRst] at h; omega
  · rw [hn]; unfold Rtl.next; split <;> exact hr

/-- A host cycle touches no sensor register and no queue but the bridging queue. -/
theorem host_effect_control (s : State) : s.now.SameControl (effectOf (hostOp s.sensorRst s.hostTakes) s s.now) ∧
    (effectOf (hostOp s.sensorRst s.hostTakes) s s.now).des = s.now.des := by
  rw [host_effect]
  split
  · exact ⟨⟨rfl, rfl, rfl, rfl, rfl, rfl, rfl, rfl, rfl⟩, rfl⟩
  · split <;> exact ⟨⟨rfl, rfl, rfl, rfl, rfl, rfl, rfl, rfl, rfl⟩, rfl⟩

/-- During the hold the sensor registers are at their reset values already, so a held cycle changes nothing. -/
theorem heldInReset_of_inv (hI : s.Inv) (hr : s.sensorRst = true) : s.now.heldInReset = s.now := by
  simp only [State.sensorRst, decide_eq_true_eq] at hr
  obtain ⟨⟨h1, h2, h3, h4, h5, h6⟩, -⟩ := hI.regs.hold hr
  unfold Regs.heldInReset
  rw [← h1, ← h2, ← h3, ← h4, ← h5, ← h6]

/-! ### Facts of a valid configuration -/

/-- The lengths of a valid configuration (R10). -/
theorem Params.bounds_of_valid {p : Params} (h : p.Valid) :
    1 ≤ p.initCycles ∧ 2 ≤ p.cols ∧ 1 ≤ p.rows ∧ 1 ≤ p.biasWrites ∧
      p.biasToLatch + 1 ≤ p.cmdToLineStart ∧ p.biasToLatch + 1 ≤ p.lineStartOffset ∧ 1 ≤ p.rstHold := by
  have m := Params.meets_of_valid h
  refine ⟨?_, ?_, ?_, ?_, ?_, ?_, ?_⟩
  · simpa [Params.meets] using m .initCycles
  · simpa [Params.meets] using m .cols
  · simpa [Params.meets] using m .rows
  · simpa [Params.meets] using m .biasWrites
  · simpa [Params.meets] using m .biasToLatchInFrameStart
  · simpa [Params.meets] using m .biasToLatchInLineGap
  · simpa [Params.meets] using m .rstHold

/-- A line has at least 14 cycles, one capture period (R7, R10). -/
theorem Params.lineCycles_ge {p : Params} (h : p.Valid) : 14 ≤ p.lineCycles := by
  have := (Params.bounds_of_valid h).2.1
  simp only [Params.lineCycles]; omega

/-- A delay is at least one cycle (R9). -/
theorem Params.delay_pos (p : Params) (us : Nat) : 1 ≤ p.delay us := Nat.le_max_left _ _

/-- The first line (R118). -/
theorem Params.lineStart_zero (p : Params) : p.lineStart 0 = p.initCycles + 169 + p.cmdToLineStart := by
  simp [Params.lineStart]

/-- From one line to the next (R118). -/
theorem Params.lineStart_succ (p : Params) (k : Nat) :
    p.lineStart (k + 1) = p.lineStart k + p.lineCycles + p.lineStartOffset := by
  simp only [Params.lineStart]; ring

/-- Later lines start later. -/
theorem Params.lineStart_mono (p : Params) {j k : Nat} (h : j ≤ k) : p.lineStart j ≤ p.lineStart k := by
  unfold Params.lineStart
  exact Nat.add_le_add_left (Nat.mul_le_mul_right _ h) _

/-- A frame ends with InterFrame after its last line (R118). -/
theorem Params.framePeriod_eq (p : Params) (h : 1 ≤ p.rows) :
    p.framePeriod = p.lineStart (p.rows - 1) + p.lineCycles + p.interFrameCycles := by
  obtain ⟨n, hn⟩ : ∃ n, p.rows = n + 1 := ⟨p.rows - 1, by omega⟩
  simp only [Params.framePeriod, Params.lineStart, Params.interFrameCycles, hn, Nat.add_sub_cancel]; ring

/-! ### The states of the FrameController -/

/-- A sensor cycle without a fault is in one of the nine states of R60. -/
theorem frameState_of_noFault (h : Rtl.fault s = none) : s.now.frame.state.toNat < 9 := by
  by_contra hn
  simp [Rtl.fault, Nat.le_of_not_lt hn] at h

/-- `cmd_done` says that no word is being sent and none is queued (R80). -/
theorem cmdDone_iff {r : Regs} : r.cmdDone = true ↔ r.cmdSer.haveWord = false ∧ r.cmdQ = [] := by
  simp [Regs.cmdDone, serDone, rRdy]

/-- `bias_done` (R80). -/
theorem biasDone_iff {r : Regs} : r.biasDone = true ↔ r.biasSer.haveWord = false ∧ r.biasQ = [] := by
  simp [Regs.biasDone, serDone, rRdy]

/-- Only SendCmd pushes a command word. -/
theorem cmdPush_of_ne (h : s.now.frame.state ≠ Fc.sendCmd) : Rtl.cmdPush s = none := if_neg h

/-- SendCmd pushes one. -/
theorem cmdPush_of_sendCmd (hv : s.cfg.Valid) (h : s.now.frame.state = Fc.sendCmd) :
    ∃ w, Rtl.cmdPush s = some w := by
  obtain ⟨w, hw⟩ := cmdWord?_of_valid (s := s) hv
  exact ⟨w, by simp [Rtl.cmdPush, h, hw]⟩

/-- The bias trigger comes from one of the two waits (R102). -/
theorem waits_of_biasTrigger (h : s.biasTrigger = true) :
    s.now.frame.state = Fc.waitFrameStart ∧ s.now.cmdDone = true ∨ s.now.frame.state = Fc.waitLine := by
  simp only [State.biasTrigger, Bool.or_eq_true, Bool.and_eq_true, beq_iff_eq] at h
  rcases h with ⟨⟨h1, h2⟩, -⟩ | ⟨h1, -⟩
  · exact .inl ⟨h1, h2⟩
  · exact .inr h1

/-- The four states that count `line_cnt`. -/
theorem states_of_lineLength {n : Nat} (h : Rtl.lineLength s.cfg s.now.frame.state = some n) :
    s.now.frame.state = Fc.waitFrameStart ∨ s.now.frame.state = Fc.readLine ∨
      s.now.frame.state = Fc.waitLine ∨ s.now.frame.state = Fc.interFrame := by
  simp only [Rtl.lineLength] at h
  split at h
  · exact .inl ‹_›
  split at h
  · exact .inr (.inl ‹_›)
  split at h
  · exact .inr (.inr (.inl ‹_›))
  split at h
  · exact .inr (.inr (.inr ‹_›))
  · cases h

/-- A state that counts does so in every cycle, but for the wait for `cmd_done`. -/
theorem counts_of_lineLength {n : Nat} (h : Rtl.lineLength s.cfg s.now.frame.state = some n)
    (hw : s.now.frame.state = Fc.waitFrameStart → s.now.cmdDone = true) : Rtl.counts s = true := by
  by_cases hx : s.now.frame.state = Fc.waitFrameStart
  · simp [Rtl.counts, h, hw hx]
  · simp only [Rtl.counts, h, beq_eq_false_iff_ne.2 hx, bne]; rfl

/-- The last cycle of a counted state: the next state, its counter at 0. -/
theorem frame_of_last {n : Nat} (h : Rtl.lineLength s.cfg s.now.frame.state = some n)
    (hw : s.now.frame.state = Fc.waitFrameStart → s.now.cmdDone = true) (hn : s.now.frame.lineCnt + 1 = n) :
    (Rtl.frame s).lineCnt = 0 ∧ (Rtl.frame s).state =
      if s.now.frame.state = Fc.readLine then
        if s.now.frame.rowCnt + 1 = s.cfg.rows then Fc.interFrame else Fc.waitLine
      else if s.now.frame.state = Fc.interFrame then Fc.init else Fc.readLine := by
  have hl : Rtl.lineEnds s = true := by simp [Rtl.lineEnds, counts_of_lineLength h hw, h, hn]
  rcases states_of_lineLength h with hs | hs | hs | hs <;>
    simp [Rtl.frame, Rtl.fcState, hs, hl, Rtl.frameEnds]

/-- Any other cycle of a counted state: the same state, one more counted. -/
theorem frame_of_not_last {n : Nat} (h : Rtl.lineLength s.cfg s.now.frame.state = some n)
    (hw : s.now.frame.state = Fc.waitFrameStart → s.now.cmdDone = true) (hn : s.now.frame.lineCnt + 1 ≠ n) :
    Rtl.frame s = { s.now.frame with lineCnt := s.now.frame.lineCnt + 1 } := by
  have hc := counts_of_lineLength h hw
  have hl : Rtl.lineEnds s = false := by simp [Rtl.lineEnds, hc, h, hn]
  rcases states_of_lineLength h with hs | hs | hs | hs <;>
    simp [Rtl.frame, Rtl.fcState, hs, hl, hc, Rtl.frameEnds]

end Sys2Proof.Machine
end

