-- ==== Sys2Proof/Laws/Streams.lean ====
section
/-! SUPPORT. Words as streams of bits: what one shift, one accumulated bit or one queue cycle does to them. -/

namespace Sys2Proof.Machine

/-! ### Words being sent -/

@[simp] theorem length_wordBits {w : Nat} (o : BitOrder) (v : BitVec w) : (wordBits o v).length = w := by
  cases o <;> simp [wordBits]

/-- Bit `i` of the stream of a word. -/
theorem getElem_wordBits {w : Nat} (o : BitOrder) (v : BitVec w) (i : Nat) (h : i < (wordBits o v).length) :
    (wordBits o v)[i] = v.getLsbD (match o with | .msbFirst => w - 1 - i | .lsbFirst => i) := by
  cases o <;> simp only [wordBits, List.getElem_map, List.getElem_range]

/-- A word is its extremal bit, then the word shifted once, without the zero that filled it (R12). -/
theorem wordBits_eq_cons {w : Nat} (hw : 1 ≤ w) (o : BitOrder) (v : BitVec w) :
    wordBits o v = ext o v :: (wordBits o (shift o v)).take (w - 1) := by
  apply List.ext_getElem
  · rw [List.length_cons, List.length_take, length_wordBits, length_wordBits]; omega
  · intro i h1 h2
    have hi : i < w := by rwa [length_wordBits] at h1
    rw [getElem_wordBits]
    cases i with
    | zero =>
      cases o
      · rw [List.getElem_cons_zero, ext, BitVec.msb_eq_getLsbD_last]; rfl
      · rfl
    | succ i =>
      rw [List.getElem_cons_succ, List.getElem_take, getElem_wordBits]
      cases o
      · simp only [shift, BitVec.getLsbD_shiftLeft]
        rw [show w - 1 - i - 1 = w - 1 - (i + 1) by omega, decide_eq_true (by omega),
          decide_eq_false (by omega)]
        rfl
      · simp only [shift, BitVec.getLsbD_ushiftRight]
        congr 1; omega

/-- The same of the first `n` bits of a word. -/
theorem take_wordBits {w : Nat} (o : BitOrder) (v : BitVec w) (n : Nat) (h1 : 1 ≤ n) (h2 : n ≤ w) :
    (wordBits o v).take n = ext o v :: (wordBits o (shift o v)).take (n - 1) := by
  rw [wordBits_eq_cons (by omega)]
  obtain ⟨k, rfl⟩ : ∃ k, n = k + 1 := ⟨n - 1, by omega⟩
  rw [List.take_succ_cons, List.take_take]; congr 2; omega

/-- An empty shift register sends 0 (R80). -/
theorem ext_zero {w : Nat} (o : BitOrder) : ext o (0 : BitVec w) = false := by cases o <;> simp [ext]

/-- A shift moves one more bit out. -/
theorem sentBitsZero_shift {w : Nat} (o : BitOrder) (v : BitVec w) (n : Nat) (hn : n < w)
    (h : sentBitsZero o v n) : sentBitsZero o (shift o v) (n + 1) := by
  cases o
  · simp only [sentBitsZero, shift, BitVec.toNat_shiftLeft] at *
    rw [Nat.mod_mod_of_dvd _ (Nat.pow_dvd_pow 2 (by omega)), Nat.shiftLeft_eq, pow_one, pow_succ,
      Nat.mul_mod_mul_right, h, Nat.zero_mul]
  · simp only [sentBitsZero, shift, BitVec.toNat_ushiftRight] at *
    rw [Nat.shiftRight_eq_div_pow, pow_one]
    have : 2 ^ (w - n) = 2 ^ (w - (n + 1)) * 2 := by rw [← pow_succ]; congr 1; omega
    omega

/-- Before the first shift nothing has been sent. -/
theorem sentBitsZero_zero {w : Nat} (o : BitOrder) (v : BitVec w) : sentBitsZero o v 0 := by
  cases o <;> simp [sentBitsZero, Nat.mod_one, v.isLt]

/-- A register whose bits have all been sent is zero. -/
theorem eq_zero_of_sentBitsZero {w : Nat} (o : BitOrder) (v : BitVec w) (h : sentBitsZero o v w) : v = 0 := by
  apply BitVec.eq_of_toNat_eq
  cases o
  · simp only [sentBitsZero] at h; rw [Nat.mod_eq_of_lt v.isLt] at h; simpa using h
  · simp only [sentBitsZero, Nat.sub_self, pow_zero] at h; simp; omega

/-! ### Bits being received -/

/-- An accumulator of `n` bits takes one more. -/
theorem accumulate_lt (a : Sample) (lane : Bool) (n : Nat) (hn : n ≤ 12) (h : a.toNat < 2 ^ n) :
    (accumulate a lane).toNat < 2 ^ (n + 1) := by
  have h13 : a.toNat < 2 ^ 13 := lt_of_lt_of_le h (Nat.pow_le_pow_right (by omega) (by omega))
  simp only [accumulate, BitVec.toNat_concat, BitVec.toNat_setWidth, Nat.mod_eq_of_lt h13]
  have := Bool.toNat_le lane
  rw [pow_succ]; omega

/-- The new bit arrives after the others (R90). -/
theorem arrived_accumulate (a : Sample) (lane : Bool) (n : Nat) (hn : n ≤ 13) :
    arrived (accumulate a lane) (n + 1) = arrived a n ++ [lane] := by
  apply List.ext_getElem
  · simp [arrived]
  · intro i h1 h2
    simp only [arrived, List.length_map, List.length_range] at h1
    by_cases hi : i < n
    · rw [List.getElem_append_left (by simpa [arrived] using hi)]
      simp only [arrived, List.getElem_map, List.getElem_range, accumulate, BitVec.getLsbD_concat]
      rw [if_neg (by omega), show n + 1 - 1 - i - 1 = n - 1 - i by omega]
      simp; omega
    · obtain rfl : i = n := by omega
      simp [arrived, accumulate, BitVec.getLsbD_concat]

/-! ### Queues -/

/-- A queue with a pop of what it holds and a push stays in order (R33). -/
theorem take_append_queue {α : Type} (q : List α) (pop : Bool) (push : Option α) :
    (if pop then q.take 1 else []) ++ Rtl.queue q pop push = q ++ push.toList := by
  cases pop <;> cases q <;> simp [Rtl.queue]

/-- A queue pushed to only when it has space stays within its capacity (R34, R47). -/
theorem length_queue_le {α : Type} (q : List α) (pop : Bool) (push : Option α) (depth : Nat)
    (h : q.length ≤ depth) (hp : push.isSome = true → q.length < depth) :
    (Rtl.queue q pop push).length ≤ depth := by
  unfold Rtl.queue
  cases pop <;> cases push <;> simp at * <;> omega

end Sys2Proof.Machine
end

