-- ==== Sys2Proof/Tests/Slice0.lean ====
section
/-! SUPPORT. Tests against spec/95_test_vectors.md and spec/30_encoding.md, the refusals of ill-formed terms, and a
witness for the hypotheses of each statement of Certificates/Slice0/Obligations.lean. States are named after the
cycle of program P1 they are taken from. -/

namespace Sys2Proof.Tests

open Sys2Proof.Machine

/-! ### Small states -/

/-- The registers after a step. -/
def after : Result → Option Regs
  | .next t => some t.now
  | .fault _ => none
  | .refused _ => none

/-- The registers an operation schedules. -/
def scheduled : Result → Option Regs
  | .next t => some t.nxt
  | .fault _ => none
  | .refused _ => none

/-- A sensor cycle with exact `bw_rdy`, lanes at 0. -/
def sensor : Draw := ⟨.sensor, false, false, true, true, true, 0⟩

/-- A host cycle with exact `br_rdy` and an accepting sink. -/
def host : Draw := ⟨.host, false, false, true, true, true, 0⟩

/-- The system reset. -/
def reset : Draw := ⟨.reset, false, false, true, true, true, 0⟩

/-- A state of a configuration with one input given. -/
def stateOf (cfg : Params) (r : Regs) (d : Draw) : State := (Block.mk r r [d] 0).under cfg

/-- A state of program P1. -/
def p1 (r : Regs) (d : Draw) : State := stateOf Config.p1 r d

/-- Cycle 0: the hold is over. -/
def r0 : Regs := { Regs.reset with rstCnt := 7 }

/-- Cycle 6: `ready` rises. -/
def r6 : Regs := { r0 with power := ⟨.boostEnabled, 0⟩, cycle := 6 }

/-- Cycle 43: SendCmd of word 11, word 2 being sent. -/
def r43 : Regs := { r6 with
  frame := ⟨Fc.sendCmd, 0, 11, 0, 0⟩, cmdSer := ⟨0x0030, true, 4⟩
  cmdQ := [0x2004, 0x2005, 0x2006, 0x2007, 0x2008, 0x2009, 0x200A, 0x200B], cycle := 43 }

/-- Cycle 100: waiting for `cmd_done`, word 6 being sent. -/
def r100 : Regs := { r6 with
  frame := ⟨Fc.waitFrameStart, 0, 11, 0, 0⟩, cmdSer := ⟨0x00E0, true, 5⟩
  cmdQ := [0x2008, 0x2009, 0x200A, 0x200B, 0x200C], cycle := 100 }

/-- Cycle 181: the bias trigger of line 0. -/
def r181 : Regs := { r6 with frame := ⟨Fc.waitFrameStart, 0, 11, 2, 0⟩, cycle := 181 }

/-- Cycle 186: line 0, the burst at its third write. -/
def r186 : Regs := { r6 with
  frame := ⟨Fc.readLine, 0, 11, 2, 0⟩, inj := ⟨true, false, 2⟩, biasSer := ⟨0b0001000, true, 3⟩
  biasQ := [0x41], des := ⟨2, 0, 2, 0, 0, false, .evenLow⟩, cycle := 186 }

/-- Cycle 197: the first capture; the vector's lanes carry 0 in it. -/
def r197 : Regs := { r6 with
  frame := ⟨Fc.readLine, 0, 11, 13, 0⟩, biasQ := [0x41], des := ⟨5461, 1962, 13, 0, 0, false, .evenLow⟩
  cycle := 197 }

/-- Cycle 213: the trigger of line 1, two bytes of the second pair sent. -/
def r213 : Regs := { r6 with
  frame := ⟨Fc.waitLine, 0, 11, 1, 1⟩, des := ⟨0, 0, 0, 0x0001, 0x1234, true, .evenHigh⟩, bridgeQ := [0x01]
  cycle := 213 }

/-- Cycle 275: the last one of InterFrame. -/
def r275 : Regs := { r6 with
  frame := ⟨Fc.interFrame, 0, 0, 31, 0⟩, des := ⟨0, 0, 0, 0x2000, 0x3FFE, false, .evenLow⟩, cycle := 275 }

/-- Program P3, with an odd number of columns (spec/95 section 3). -/
def p3 : Params := { Config.p1 with cols := 3, biasWrites := 2 }

/-- P3, cycle 205: the first one after a line, seven bits left over. -/
def r205 : Regs := { r6 with
  frame := ⟨Fc.waitLine, 0, 11, 0, 1⟩, des := ⟨0x7F, 0x7F, 7, 0x0123, 0x3210, false, .evenLow⟩, cycle := 205 }

/-! ### Well-formedness: each check refuses an ill-formed term -/

theorem test_selector_width_refused :
    ∀ w ∈ [SelWord.mk .selSensor 2, ⟨.selPs, 4⟩, ⟨.selSer .cmd, 8⟩, ⟨.selSer .bias, 8⟩, ⟨.selDes, 4⟩,
        ⟨.selEmit, 16⟩, ⟨.selFc, 16⟩, ⟨.selBias, 4⟩, ⟨.selHost, 4⟩, ⟨.event, 2⟩],
      ¬ w.WellFormed ∧ decodeSel w = .error .bitsAboveSelector := by decide

theorem test_operations_well_formed :
    (Instr.serIdle .cmd).WellFormed ∧ (Instr.serLoad .bias).WellFormed ∧ Instr.sysReset.WellFormed ∧
      Instr.emitOddHi.selWord.WellFormed ∧ Instr.fcInterframe.selWord.WellFormed := by
  exact ⟨.inl rfl, .inr rfl, trivial, by decide, by decide⟩

theorem test_bytes_refused :
    decode [] = .error .truncated ∧ decode [0] = .error .truncated ∧ decode [0, 10] = .error .unknownFormat ∧
      decode [0, Format.selSensor.tag] = .error .noOperation ∧ decode [0, Format.event.tag] = .error .noOperation ∧
      decode [9, Format.selFc.tag] = .error .reservedFcState ∧
      decode [15, Format.selFc.tag] = .error .reservedFcState := by decide

theorem test_p1_valid : Config.p1.Valid ∧ p3.Valid := by decide

/-- Each condition of R10, failing first; the rows of spec/95 section 2.8 among them. -/
theorem test_configurations_refused :
    ∀ pc ∈ [({ Config.p1 with cmdWords := 0x4000 :: Config.p1.cmdWords.tail }, ParamCheck.cmdWords),
        ({ Config.p1 with cmdWords := Config.p1.cmdWords.tail }, .cmdWords),
        ({ Config.p1 with biasValue := 0x80 }, .biasValue), ({ Config.p1 with clkFreqHz := 0 }, .clkFreqHz),
        ({ Config.p1 with initCycles := 0 }, .initCycles), ({ Config.p1 with cols := 1 }, .cols),
        ({ Config.p1 with rows := 0 }, .rows), ({ Config.p1 with cmdToLineStart := 0 }, .cmdToLineStart),
        ({ Config.p1 with lineStartOffset := 0 }, .lineStartOffset),
        ({ Config.p1 with biasWrites := 0 }, .biasWrites),
        ({ Config.p1 with biasToLatch := 5 }, .biasToLatchInFrameStart),
        ({ Config.p1 with biasToLatch := 4 }, .biasToLatchInLineGap),
        ({ Config.p1 with cmdQDepth := 0 }, .cmdQDepth), ({ Config.p1 with biasQDepth := 0 }, .biasQDepth),
        ({ Config.p1 with bridgeDepth := 0 }, .bridgeDepth), ({ Config.p1 with rstHold := 0 }, .rstHold)],
      pc.1.firstFailed = some pc.2 := by decide

theorem test_invalid_configuration_has_no_step :
    step (stateOf { Config.p1 with cols := 1 } r0 sensor) = .refused (.paramInvalid .cols) := by rfl

/-! ### Decoding: the words of R64, bit by bit -/

theorem test_decode_sensor_event :
    decodeSel ⟨.selSensor, 0b1⟩ = .ok .sensorHeld ∧ decodeSel ⟨.event, 0b1⟩ = .ok .sysReset := by decide

theorem test_decode_ps :
    decodeSel ⟨.selPs, 0b00⟩ = .ok .psInit ∧ decodeSel ⟨.selPs, 0b01⟩ = .ok .psRail3v3 ∧
      decodeSel ⟨.selPs, 0b10⟩ = .ok .psRail2v5 ∧ decodeSel ⟨.selPs, 0b11⟩ = .ok .psBoost := by decide

/-- Both values of every bit the mask leaves out. -/
theorem test_decode_ser : ∀ x ∈ [SerInst.cmd, .bias],
    decodeSel ⟨.selSer x, 0b000⟩ = .ok (.serIdle x) ∧ decodeSel ⟨.selSer x, 0b001⟩ = .ok (.serIdle x) ∧
      decodeSel ⟨.selSer x, 0b010⟩ = .ok (.serLoad x) ∧ decodeSel ⟨.selSer x, 0b011⟩ = .ok (.serLoad x) ∧
      decodeSel ⟨.selSer x, 0b100⟩ = .ok (.serShift x) ∧ decodeSel ⟨.selSer x, 0b110⟩ = .ok (.serShift x) ∧
      decodeSel ⟨.selSer x, 0b101⟩ = .ok (.serLast x) ∧ decodeSel ⟨.selSer x, 0b111⟩ = .ok (.serLast x) := by
  decide

theorem test_decode_des :
    decodeSel ⟨.selDes, 0b00⟩ = .ok .desClr ∧ decodeSel ⟨.selDes, 0b01⟩ = .ok .desClr ∧
      decodeSel ⟨.selDes, 0b10⟩ = .ok .desAcc ∧ decodeSel ⟨.selDes, 0b11⟩ = .ok .desCap := by decide

theorem test_decode_emit :
    decodeSel ⟨.selEmit, 0b0000⟩ = .ok .emitIdle ∧ decodeSel ⟨.selEmit, 0b0111⟩ = .ok .emitIdle ∧
      decodeSel ⟨.selEmit, 0b1000⟩ = .ok .emitStall ∧ decodeSel ⟨.selEmit, 0b1011⟩ = .ok .emitStall ∧
      decodeSel ⟨.selEmit, 0b1100⟩ = .ok .emitEvenLo ∧ decodeSel ⟨.selEmit, 0b1101⟩ = .ok .emitEvenHi ∧
      decodeSel ⟨.selEmit, 0b1110⟩ = .ok .emitOddLo ∧ decodeSel ⟨.selEmit, 0b1111⟩ = .ok .emitOddHi := by
  decide

theorem test_decode_fc :
    decodeSel ⟨.selFc, 0b0000⟩ = .ok .fcPowerup ∧ decodeSel ⟨.selFc, 0b0001⟩ = .ok .fcInit ∧
      decodeSel ⟨.selFc, 0b0010⟩ = .ok .fcSendcmd ∧ decodeSel ⟨.selFc, 0b0011⟩ = .ok .fcSendcmdStrobe ∧
      decodeSel ⟨.selFc, 0b0100⟩ = .ok .fcSendcmdAdvance ∧
      decodeSel ⟨.selFc, 0b0101⟩ = .ok .fcWaitFrameStart ∧ decodeSel ⟨.selFc, 0b0110⟩ = .ok .fcReadline ∧
      decodeSel ⟨.selFc, 0b0111⟩ = .ok .fcWaitline ∧ decodeSel ⟨.selFc, 0b1000⟩ = .ok .fcInterframe := by
  decide

theorem test_decode_bias_host :
    decodeSel ⟨.selBias, 0b00⟩ = .ok .biasIdle ∧ decodeSel ⟨.selBias, 0b01⟩ = .ok .biasIdle ∧
      decodeSel ⟨.selBias, 0b10⟩ = .ok .biasWrite ∧ decodeSel ⟨.selBias, 0b11⟩ = .ok .biasStrobe ∧
      decodeSel ⟨.selHost, 0b10⟩ = .ok .hostResetHold ∧ decodeSel ⟨.selHost, 0b11⟩ = .ok .hostResetHold ∧
      decodeSel ⟨.selHost, 0b00⟩ = .ok .hostIdle ∧ decodeSel ⟨.selHost, 0b01⟩ = .ok .hostXfer := by decide

/-- Bytes: the selector, then the tag; a bare word is read as `sel_fc` (log entry 6). -/
theorem test_decode_table_words :
    decodeTableWord 16 0x0202 = some .psRail2v5 ∧ decodeTableWord 16 0x060D = some .emitEvenHi ∧
      decodeTableWord 16 0x0302 = some (.serLoad .cmd) ∧ decodeTableWord 16 0x0402 = some (.serLoad .bias) ∧
      decodeTableWord 8 0x05 = some .fcWaitFrameStart ∧ decodeTableWord 8 0x09 = none := by decide

/-- A placed word is fetched by the next step. -/
theorem test_placed_words_are_fetched :
    ∀ f ∈ [Format.selSensor, .selPs, .selSer .cmd, .selSer .bias, .selDes, .selEmit, .selFc, .selBias, .selHost,
        .event], ∀ i ∈ f.operations, i.selWord ∈ (State.reset.placeWord i.selWord).fetch := by decide

theorem test_fetch_word_runs :
    (after (step (State.reset.withFetchWord 16 0x0200))).map (·.power) = some ⟨.init, 1⟩ ∧
      (after (step (State.reset.withFetchWord 8 0x01))).map (·.frame.initCnt) = some 1 := by decide

/-! ### PowerSequencer: the trace of spec/95 section 2.1 -/

theorem test_ps_init :
    (after (step (p1 r0 sensor))).map (·.power) = some ⟨.init, 1⟩ ∧
      (after (step (p1 { r0 with power := ⟨.init, 1⟩ } sensor))).map (·.power) = some ⟨.rail3v3, 0⟩ := by decide

/-- A counter above D - 1 leaves too. -/
theorem test_ps_inequality :
    (after (step (p1 { r0 with power := ⟨.init, 9⟩ } sensor))).map (·.power) = some ⟨.rail3v3, 0⟩ := by decide

theorem test_ps_rails :
    (after (step (p1 { r0 with power := ⟨.rail3v3, 1⟩ } sensor))).map (·.power) = some ⟨.rail3v3, 2⟩ ∧
      (after (step (p1 { r0 with power := ⟨.rail3v3, 2⟩ } sensor))).map (·.power) = some ⟨.rail2v5, 0⟩ ∧
      (after (step (p1 { r0 with power := ⟨.rail2v5, 0⟩ } sensor))).map (·.power) = some ⟨.boostEnabled, 0⟩ ∧
      (after (step (p1 r6 sensor))).map (·.power) = some ⟨.boostEnabled, 0⟩ := by decide

theorem test_ps_pins :
    (p1 { r0 with power := ⟨.rail3v3, 0⟩ } sensor).pins.en3v3 = true ∧
      (p1 { r0 with power := ⟨.rail3v3, 2⟩ } sensor).pins.en2v5 = false ∧
      (p1 { r0 with power := ⟨.rail2v5, 0⟩ } sensor).pins.en2v5 = true ∧
      (p1 { r0 with power := ⟨.rail2v5, 0⟩ } sensor).signals.ready = false ∧
      (p1 r6 sensor).signals.ready = true ∧ (p1 r6 sensor).pins.enBoost = true := by decide

/-- The delays of the table of spec/95 section 2.1. -/
theorem test_ps_delays :
    (Params.delay { Config.p1 with clkFreqHz := 100000 } 0,
      Params.delay { Config.p1 with clkFreqHz := 100000 } 15,
      Params.delay { Config.p1 with clkFreqHz := 100000 } 25,
      Params.delay { Config.p1 with clkFreqHz := 32768 } 1000) = (1, 1, 2, 32) := by decide

/-! ### Serializers: the register trace of spec/95 section 2.2 -/

theorem test_ser_load :
    (p1 { r0 with biasQ := [0x53] } sensor).pins.biasOut = true ∧
      (after (step (p1 { r0 with biasQ := [0x53] } sensor))).map (fun r => (r.biasSer, r.biasQ)) =
        some (⟨0b0100110, true, 1⟩, []) := by decide

theorem test_ser_shift :
    (p1 { r0 with biasSer := ⟨0b0100110, true, 1⟩ } sensor).pins.biasOut = false ∧
      (after (step (p1 { r0 with biasSer := ⟨0b0100110, true, 1⟩, biasQ := [1] } sensor))).map
        (fun r => (r.biasSer, r.biasQ)) = some (⟨0b1001100, true, 2⟩, [1]) := by decide

theorem test_ser_last :
    (after (step (p1 { r0 with biasSer := ⟨0b1000000, true, 6⟩ } sensor))).map (·.biasSer) =
      some ⟨0, false, 0⟩ := by decide

theorem test_ser_idle :
    (after (step (p1 r0 sensor))).map (·.cmdSer) = some ⟨0, false, 0⟩ ∧ (p1 r0 sensor).signals.cmdDone = true := by
  decide

/-- LSB_FIRST sends bit 0 first. -/
theorem test_ser_lsb_first :
    let s := stateOf { Config.p1 with cmdBitOrder := .lsbFirst } { r0 with cmdQ := [0b10110000000001] } sensor
    s.pins.cmdOut = true ∧
      (after (step s)).map (·.cmdSer) = some ⟨0b01011000000000, true, 1⟩ := by decide

/-! ### SampleDeserializer: spec/95 sections 2.3 and 2.4 -/

theorem test_des_acc :
    (after (step (p1 { r197 with
        frame := ⟨Fc.readLine, 0, 11, 12, 0⟩, des := ⟨2730, 981, 12, 0, 0, false, .evenLow⟩ }
      { sensor with laneE := true }))).map (·.des) = some ⟨5461, 1962, 13, 0, 0, false, .evenLow⟩ := by decide

theorem test_des_cap :
    (after (step (p1 r197 sensor))).map (·.des) = some ⟨0, 0, 0, 0x1555, 0x0ABC, true, .evenLow⟩ := by decide

theorem test_des_clr :
    (after (step (p1 { r181 with des := ⟨0x0123, 5, 6, 7, 8, false, .evenLow⟩ } sensor))).map (·.des) =
      some ⟨0, 0, 0, 7, 8, false, .evenLow⟩ := by decide

/-- Example S2 of spec/95: the bits 1, 0, 1, 0, .. give 0x1555. -/
theorem test_rev14 : rev14 0x2AAA = 0x1555 ∧ rev14 (accumulate 1962 false) = 0x0ABC := by decide

/-- The overrun row `199 .. 209` of spec/95 section 2.4: ODD_LO in the cycle of the capture. -/
theorem test_overrun :
    (after (step (p1 { r197 with des := ⟨0, 0, 13, 0x1555, 0x0ABC, true, .oddLow⟩ } sensor))).map
      (fun r => (r.overrunCount, r.bridgeQ, r.des.emitSt, r.des.haveData)) =
        some (1, [0xBC], .oddHigh, true) := by decide

/-- The row `199 .. 208`: ODD_HI in the cycle of the capture is no overrun. -/
theorem test_no_overrun_with_odd_high :
    (after (step (p1 { r197 with des := ⟨0, 0, 13, 0x1555, 0x0ABC, true, .oddHigh⟩ } sensor))).map
      (fun r => (r.overrunCount, r.bridgeQ, r.des.emitSt, r.des.haveData)) =
        some (0, [0x0A], .evenLow, true) := by decide

theorem test_emit_even :
    (after (step (p1 { r213 with des := ⟨0, 0, 0, 0x1555, 0x0ABC, true, .evenLow⟩ } sensor))).map
        (fun r => (r.bridgeQ, r.des.emitSt)) = some ([0x01, 0x55], .evenHigh) ∧
      (after (step (p1 { r213 with des := ⟨0, 0, 0, 0x3FFF, 0x0ABC, true, .evenHigh⟩ } sensor))).map
        (fun r => (r.bridgeQ, r.des.emitSt)) = some ([0x01, 0x3F], .oddLow) := by decide

theorem test_emit_odd :
    (after (step (p1 { r213 with des := ⟨0, 0, 0, 0x1555, 0x0ABC, true, .oddLow⟩ } sensor))).map
        (fun r => (r.bridgeQ, r.des.emitSt)) = some ([0x01, 0xBC], .oddHigh) ∧
      (after (step (p1 { r213 with des := ⟨0, 0, 0, 0x1555, 0x3FFE, true, .oddHigh⟩ } sensor))).map
        (fun r => (r.bridgeQ, r.des.emitSt, r.des.haveData)) = some ([0x01, 0x3F], .evenLow, false) := by decide

theorem test_emit_stall_idle :
    (after (step (p1 r213 { sensor with bwSees := false }))).map (fun r => (r.bridgeQ, r.des)) =
        some ([0x01], r213.des) ∧
      (after (step (p1 { r213 with bridgeQ := List.replicate 8 0 } sensor))).map (·.bridgeQ.length) = some 8 ∧
      (after (step (p1 r275 sensor))).map (fun r => (r.bridgeQ, r.des)) = some ([], r275.des) := by decide

/-! ### FrameController: the table of spec/95 section 2.5 -/

theorem test_fc_powerup :
    (after (step (p1 r6 sensor))).map (·.frame) = some ⟨Fc.init, 0, 0, 0, 0⟩ ∧
      (after (step (p1 r0 sensor))).map (·.frame) = some ⟨Fc.powerup, 0, 0, 0, 0⟩ := by decide

theorem test_fc_init :
    (after (step (p1 { r6 with frame := ⟨Fc.init, 1, 0, 0, 0⟩ } sensor))).map (·.frame) =
        some ⟨Fc.init, 2, 0, 0, 0⟩ ∧
      (after (step (p1 { r6 with frame := ⟨Fc.init, 2, 0, 0, 0⟩ } sensor))).map (·.frame) =
        some ⟨Fc.sendCmd, 0, 0, 0, 0⟩ := by decide

theorem test_fc_sendcmd :
    (after (step (p1 { r6 with frame := ⟨Fc.sendCmd, 0, 0, 0, 0⟩ } sensor))).map (fun r => (r.frame.state, r.cmdQ)) =
        some (Fc.sendCmdStrobe, [0x2001]) ∧
      (after (step (p1 r43 sensor))).map (fun r => (r.frame.state, r.cmdQ.length, r.cmdQ.getLast?)) =
        some (Fc.sendCmdStrobe, 9, some 0x200C) := by decide

theorem test_fc_strobe_advance :
    (after (step (p1 { r6 with frame := ⟨Fc.sendCmdStrobe, 0, 3, 0, 0⟩ } sensor))).map (·.frame) =
        some ⟨Fc.sendCmdAdvance, 0, 3, 0, 0⟩ ∧
      (after (step (p1 { r6 with frame := ⟨Fc.sendCmdAdvance, 0, 3, 0, 0⟩ } sensor))).map (·.frame) =
        some ⟨Fc.sendCmd, 0, 4, 0, 0⟩ ∧
      (after (step (p1 { r6 with frame := ⟨Fc.sendCmdAdvance, 0, 11, 0, 0⟩ } sensor))).map (·.frame) =
        some ⟨Fc.waitFrameStart, 0, 11, 0, 0⟩ := by decide

theorem test_fc_wait_frame_start :
    (after (step (p1 r100 sensor))).map (·.frame) = some r100.frame ∧
      (after (step (p1 r181 sensor))).map (fun r => (r.frame.lineCnt, r.inj)) = some (3, ⟨true, false, 0⟩) ∧
      (after (step (p1 { r181 with frame := ⟨Fc.waitFrameStart, 0, 11, 4, 0⟩ } sensor))).map
        (fun r => (r.frame, r.inj.active)) = some (⟨Fc.readLine, 0, 11, 0, 0⟩, false) := by decide

theorem test_fc_readline :
    (after (step (p1 { r6 with frame := ⟨Fc.readLine, 0, 11, 27, 0⟩ } sensor))).map (·.frame) =
        some ⟨Fc.waitLine, 0, 11, 0, 1⟩ ∧
      (after (step (p1 { r6 with frame := ⟨Fc.readLine, 0, 11, 27, 1⟩ } sensor))).map (·.frame) =
        some ⟨Fc.interFrame, 0, 0, 0, 0⟩ := by decide

theorem test_fc_waitline :
    (after (step (p1 r213 sensor))).map (fun r => (r.frame.lineCnt, r.inj)) = some (2, ⟨true, false, 0⟩) ∧
      (after (step (p1 { r6 with frame := ⟨Fc.waitLine, 0, 11, 3, 1⟩ } sensor))).map (·.frame) =
        some ⟨Fc.readLine, 0, 11, 0, 1⟩ := by decide

theorem test_fc_interframe :
    (after (step (p1 r275 sensor))).map (·.frame) = some ⟨Fc.init, 0, 0, 0, 0⟩ ∧
      (after (step (p1 { r275 with frame := ⟨Fc.interFrame, 0, 0, 27, 0⟩ } sensor))).map (·.frame) =
        some ⟨Fc.interFrame, 0, 0, 28, 0⟩ := by decide

/-! ### Bias injection: spec/95 section 2.6 -/

theorem test_bias_write :
    (after (step (p1 r186 sensor))).map (fun r => (r.inj, r.biasQ)) = some (⟨true, true, 2⟩, [0x41, 0x41]) := by
  decide

theorem test_bias_strobe :
    (after (step (p1 { r186 with inj := ⟨true, true, 0⟩ } sensor))).map (·.inj) = some ⟨true, false, 1⟩ ∧
      (after (step (p1 { r186 with inj := ⟨true, true, 2⟩ } sensor))).map (·.inj) = some ⟨false, false, 0⟩ := by
  decide

theorem test_bias_idle : (after (step (p1 r275 sensor))).map (·.inj) = some ⟨false, false, 0⟩ := by decide

/-! ### Host, reset and faults: spec/95 sections 2.7 to 2.9 -/

theorem test_host_hold :
    (after (step (p1 { r0 with rstCnt := 6, bridgeQ := [0x99] } host))).map
      (fun r => (r.rstCnt, r.bridgeQ, r.hostStream)) = some (7, [], []) := by decide

theorem test_host_xfer_idle :
    (after (step (p1 { r6 with bridgeQ := [0x55, 0x15], hostStream := [0xAA] } host))).map
        (fun r => (r.bridgeQ, r.hostStream)) = some ([0x15], [0xAA, 0x55]) ∧
      (after (step (p1 { r6 with bridgeQ := [0x55] } { host with hostReady := false }))).map (·.bridgeQ) =
        some [0x55] ∧
      (after (step (p1 r6 host))).map (·.hostStream) = some [] := by decide

theorem test_sensor_held :
    (after (step (p1 { r186 with rstCnt := 6 } sensor))).map
      (fun r => (r.frame, r.power, r.des, r.biasQ, r.cycle)) =
        some (Frame.reset, Power.reset, Deserializer.reset, [0x41], 186) := by decide

theorem test_sys_reset :
    after (step (p1 { r186 with hostStream := [0x55], bridgeQ := [1] } reset)) =
      some { Regs.reset with hostStream := [0x55] } := by decide

/-- P4a of spec/95: CMD_QUEUE_OVERFLOW at cycle 43, the state as it was. -/
theorem test_fault_cmd_queue :
    after (step (stateOf { Config.p1 with cmdQDepth := 8 } r43 sensor)) =
      some { r43 with fault := some ⟨.cmdQueueOverflow, 43, 11⟩ } := by decide

/-- P4b: BIAS_QUEUE_OVERFLOW at 186 with `bias_cnt` 2. -/
theorem test_fault_bias_queue :
    after (step (stateOf { Config.p1 with biasQDepth := 1 } r186 sensor)) =
      some { r186 with fault := some ⟨.biasQueueOverflow, 186, 2⟩ } := by decide

/-- P4c: BIAS_RETRIGGER at 213 with `bias_cnt` 15. -/
theorem test_fault_retrigger :
    (after (step (stateOf { Config.p1 with biasWrites := 16, biasQDepth := 64 }
      { r213 with inj := ⟨true, true, 15⟩ } sensor))).map (·.fault) =
        some (some ⟨.biasRetrigger, 213, 15⟩) := by decide

/-- The priority vector of spec/95 section 2.8: a retrigger and a push to a full `bias_q`. -/
theorem test_fault_priority :
    (after (step (p1 { r213 with inj := ⟨true, false, 1⟩, biasQ := [1, 2, 3, 4] } sensor))).map (·.fault) =
      some (some ⟨.biasRetrigger, 213, 1⟩) := by decide

theorem test_fault_illegal_state :
    (after (step (p1 { r6 with frame := ⟨9, 0, 0, 0, 0⟩, cycle := 3 } sensor))).map (·.fault) =
      some (some ⟨.illegalState, 3, 9⟩) := by decide

theorem test_run_ends_until_reset :
    step (p1 { r6 with fault := some ⟨.illegalState, 3, 9⟩ } sensor) = .fault (.runEnded .illegalState) ∧
      step (p1 { r6 with fault := some ⟨.illegalState, 3, 9⟩ } host) = .fault (.runEnded .illegalState) ∧
      after (step (p1 { r6 with fault := some ⟨.illegalState, 3, 9⟩ } reset)) = some Regs.reset := by
  exact ⟨rfl, rfl, by decide⟩

/-- Example S6 of spec/95, and the table of section 2.5: L, P and T. -/
theorem test_geometry :
    Params.lineCycles { Config.p1 with cols := 339 } = 2373 ∧
      Params.lineCycles { Config.p1 with cols := 364 } = 2548 ∧ Config.p1.readyCycle = 6 ∧
      Config.p1.framePeriod = 269 ∧ p3.framePeriod = 248 ∧ Config.p1.lineStart 0 + 7 = 184 ∧
      Config.p1.lineStart 1 + 7 = 216 ∧ p3.lineStart 1 + 7 = 209 := by decide

/-- P1 written without BIAS_WRITES and RST_HOLD, which the spec's defaults then supply (R8, D37). -/
theorem test_defaults :
    ({  clkFreqHz := 1000000, tInitUs := 2, t3v3Us := 3, t2v5Us := 1, initCycles := 3
        cmdWords := Config.p1.cmdWords, cmdBitOrder := .msbFirst, biasBitOrder := .msbFirst, biasValue := 0x41
        cols := 4, rows := 2, cmdToLineStart := 5, biasToLatch := 2, lineStartOffset := 4, cmdQDepth := 9
        biasQDepth := 4, bridgeDepth := 8, markerVariant := true } : Params) = Config.p1 := by decide

/-! ### Setups (R68) -/

/-- Program P1 of spec/95 section 3 with the lanes of its first pair. -/
def setupP1 : Setup where
  cfg := Config.p1
  lanes t := if 184 ≤ t ∧ t < 198 then ((0x1555 : Sample).getLsbD (t - 184), (0x0ABC : Sample).getLsbD (t - 184))
    else (true, true)
  bwSees _ := true
  brSees _ := true
  hostReady _ := true
  debug t := (Config.freeDraw t).debug
  cycles := 2

/-- It starts with the reset hold, and the sensor's cycle 0 comes after seven host steps. -/
theorem test_setup_p1 :
    (after (step setupP1.start)).map (·.rstCnt) = some 1 ∧ setupP1.script.length = 7 + 2 * 2 ∧
      (setupP1.script.take 8).map (·.turn) =
        [.host, .host, .host, .host, .host, .host, .host, .sensor] := by decide

/-- The lane bits of the capture table, cycles 186 and 197. -/
theorem test_setup_lanes :
    setupP1.lanes 183 = (true, true) ∧ setupP1.lanes 186 = (true, true) ∧ setupP1.lanes 187 = (false, true) ∧
      setupP1.lanes 197 = (false, false) := by decide

/-! ### Witnesses: states and operands that meet the hypotheses of each statement -/

/-- The next state of a fault-free sensor cycle. -/
def nextOf (s : State) : State := (s.setRegs (Rtl.regs s)).nextDraw

theorem sensorStep_of {s : State} (hv : s.cfg.Valid) (hf : s.now.fault = none) (ht : s.draw.turn = .sensor)
    (hr : s.Running) (hn : Rtl.fault s = none) : SensorStep s (nextOf s) :=
  SensorCycle.step_of_none ⟨hv, hf, ht, hr⟩ hn

/-- A powered state of P1 that is out of reset meets the invariant when its parts do. -/
theorem inv_of {cfg : Params} {r : Regs} {d : Draw} (h : r.power = ⟨.boostEnabled, 0⟩) (hf : r.frame.Ok cfg)
    (hj : r.inj.Ok cfg) (hc : r.cmdSer.Ok cfg.cmdBitOrder) (hb : r.biasSer.Ok cfg.biasBitOrder) (hd : r.des.Ok)
    (hq : r.cmdQ.length ≤ cfg.cmdQDepth ∧ r.biasQ.length ≤ cfg.biasQDepth ∧
      r.bridgeQ.length ≤ cfg.bridgeDepth ∧ r.rstCnt = cfg.rstHold) : (stateOf cfg r d).Inv :=
  ⟨rfl, { power := by rw [show (stateOf cfg r d).now.power = _ from h]; rfl
          frame := hf
          powered := fun _ => by rw [show (stateOf cfg r d).now.power = _ from h]
          inj := hj, cmdSer := hc, biasSer := hb, des := hd, cmdQ := hq.1, biasQ := hq.2.1, bridgeQ := hq.2.2.1
          rstCnt := le_of_eq hq.2.2.2
          hold := fun hn => absurd hn (by rw [show (stateOf cfg r d).now.rstCnt = _ from hq.2.2.2]; exact lt_irrefl _) }⟩

theorem test_inv_r43 (d : Draw) : (p1 r43 d).Inv :=
  inv_of rfl (by unfold Frame.Ok; decide) (by unfold Injector.Ok; decide) (by unfold Serializer.Ok; exact ⟨by decide, by decide, rfl⟩)
    (by unfold Serializer.Ok; exact ⟨rfl, rfl⟩) (by unfold Deserializer.Ok; decide) (by decide)

theorem test_inv_r100 (d : Draw) : (p1 r100 d).Inv :=
  inv_of rfl (by unfold Frame.Ok; decide) (by unfold Injector.Ok; decide) (by unfold Serializer.Ok; exact ⟨by decide, by decide, rfl⟩)
    (by unfold Serializer.Ok; exact ⟨rfl, rfl⟩) (by unfold Deserializer.Ok; decide) (by decide)

theorem test_inv_r181 (d : Draw) : (p1 r181 d).Inv :=
  inv_of rfl (by unfold Frame.Ok; decide) (by unfold Injector.Ok; decide) (by unfold Serializer.Ok; exact ⟨rfl, rfl⟩)
    (by unfold Serializer.Ok; exact ⟨rfl, rfl⟩) (by unfold Deserializer.Ok; decide) (by decide)

theorem test_inv_r186 (d : Draw) : (p1 r186 d).Inv :=
  inv_of rfl (by unfold Frame.Ok; decide) (by unfold Injector.Ok; decide) (by unfold Serializer.Ok; exact ⟨rfl, rfl⟩)
    (by unfold Serializer.Ok; exact ⟨by decide, by decide, rfl⟩) (by unfold Deserializer.Ok; decide) (by decide)

theorem test_inv_r197 (d : Draw) : (p1 r197 d).Inv :=
  inv_of rfl (by unfold Frame.Ok; decide) (by unfold Injector.Ok; decide) (by unfold Serializer.Ok; exact ⟨rfl, rfl⟩)
    (by unfold Serializer.Ok; exact ⟨rfl, rfl⟩) (by unfold Deserializer.Ok; decide) (by decide)

theorem test_inv_r213 (d : Draw) : (p1 r213 d).Inv :=
  inv_of rfl (by unfold Frame.Ok; decide) (by unfold Injector.Ok; decide) (by unfold Serializer.Ok; exact ⟨rfl, rfl⟩)
    (by unfold Serializer.Ok; exact ⟨rfl, rfl⟩) (by unfold Deserializer.Ok; decide) (by decide)

theorem test_inv_r275 (d : Draw) : (p1 r275 d).Inv :=
  inv_of rfl (by unfold Frame.Ok; decide) (by unfold Injector.Ok; decide) (by unfold Serializer.Ok; exact ⟨rfl, rfl⟩)
    (by unfold Serializer.Ok; exact ⟨rfl, rfl⟩) (by unfold Deserializer.Ok; decide) (by decide)

/-- A sensor cycle of P1 on concrete registers. -/
theorem test_sensor_steps :
    SensorStep (p1 r0 sensor) (nextOf (p1 r0 sensor)) ∧ SensorStep (p1 r6 sensor) (nextOf (p1 r6 sensor)) ∧
      SensorStep (p1 r43 sensor) (nextOf (p1 r43 sensor)) ∧ SensorStep (p1 r100 sensor) (nextOf (p1 r100 sensor)) ∧
      SensorStep (p1 r186 sensor) (nextOf (p1 r186 sensor)) ∧ SensorStep (p1 r197 sensor) (nextOf (p1 r197 sensor)) ∧
      SensorStep (p1 r213 sensor) (nextOf (p1 r213 sensor)) ∧ SensorStep (p1 r275 sensor) (nextOf (p1 r275 sensor)) :=
  ⟨sensorStep_of (by decide) rfl rfl (by decide) (by decide), sensorStep_of (by decide) rfl rfl (by decide) (by decide),
    sensorStep_of (by decide) rfl rfl (by decide) (by decide), sensorStep_of (by decide) rfl rfl (by decide) (by decide),
    sensorStep_of (by decide) rfl rfl (by decide) (by decide), sensorStep_of (by decide) rfl rfl (by decide) (by decide),
    sensorStep_of (by decide) rfl rfl (by decide) (by decide), sensorStep_of (by decide) rfl rfl (by decide) (by decide)⟩

theorem test_witness_SelectorsNameOneOperation :
    (SelWord.mk .selFc 8).WellFormed ∧ ¬ (9 ≤ (8 : Byte).toNat) ∧ (SelWord.mk .selFc 9).WellFormed ∧
      9 ≤ (9 : Byte).toNat ∧ (SelWord.mk .selFc 15).WellFormed ∧ 2 ^ Format.selFc.width ≤ (16 : Byte).toNat ∧
      2 ^ Format.event.width ≤ (2 : Byte).toNat := by decide

theorem test_witness_EncodedOperationsDecode :
    (0b0111 : Byte).toNat < 2 ^ Instr.emitIdle.format.width ∧ (0 : Byte).toNat < 2 ^ Instr.emitIdle.format.width := by
  decide

theorem test_witness_StepRunsTheDecodedOperations :
    (p1 r186 sensor).cfg.Valid ∧ (p1 r186 sensor).now.fault = none ∧
      (p1 r186 sensor).fetch.map (fun w => decode w.bytes) =
        [Instr.psBoost, .serIdle .cmd, .serShift .bias, .desAcc, .emitIdle, .fcReadline, .biasWrite].map
          (fun i => .ok (i, [])) :=
  ⟨by decide, rfl, rfl⟩

theorem test_witness_FetchSelectsTheUnitsOperations :
    ((p1 r186 sensor).draw.turn = .sensor ∧ (p1 r186 sensor).sensorRst = false) ∧
      ((p1 { r0 with rstCnt := 6 } sensor).draw.turn = .sensor ∧
        (p1 { r0 with rstCnt := 6 } sensor).sensorRst = true) ∧
      (p1 r186 host).draw.turn = .host ∧ (p1 r186 reset).draw.turn = .reset := by decide

/-- An operation of every format answers a next state. -/
theorem test_witness_UnitsWriteOnlyTheirOwn :
    ∀ i ∈ [Instr.psInit, .serLoad .cmd, .serLoad .bias, .desCap, .emitEvenLo, .fcSendcmd, .biasWrite, .hostXfer,
        .sensorHeld, .sysReset],
      (scheduled (exec i (p1 { r186 with cmdQ := [1], bridgeQ := [1] } sensor))).isSome = true := by decide

theorem test_witness_StepStopsOnlyWhenEnded :
    ({ Config.p1 with rows := 0 } : Params).firstFailed = some .rows ∧ Config.p1.Valid ∧
      (p1 { r6 with fault := some ⟨.illegalState, 3, 9⟩ } host).now.fault = some ⟨.illegalState, 3, 9⟩ ∧
      (p1 { r6 with fault := some ⟨.illegalState, 3, 9⟩ } host).draw.turn ≠ .reset := by decide

theorem test_witness_BoostIsForever :
    FaultFreeRun (p1 r186 sensor) (nextOf (p1 r186 sensor)) ∧ (p1 r186 sensor).Running ∧
      (p1 r186 sensor).now.power = ⟨.boostEnabled, 0⟩ :=
  ⟨.step (.refl _) (by decide) (test_sensor_steps.2.2.2.2.1.next) rfl, by decide, rfl⟩

theorem test_witness_PowerHasNoInput :
    SensorStep (p1 r186 sensor) (nextOf (p1 r186 sensor)) ∧ SensorStep (p1 r213 sensor) (nextOf (p1 r213 sensor)) ∧
      (p1 r213 sensor).cfg = (p1 r186 sensor).cfg ∧ (p1 r213 sensor).now.power = (p1 r186 sensor).now.power :=
  ⟨test_sensor_steps.2.2.2.2.1, test_sensor_steps.2.2.2.2.2.2.1, rfl, rfl⟩

theorem test_witness_RailsStayOn :
    (p1 r186 sensor).Inv ∧ step (p1 r186 sensor) = .next (nextOf (p1 r186 sensor)) ∧
      (p1 r186 sensor).draw.turn ≠ .reset ∧ (p1 r186 sensor).pins.enBoost = true ∧ (p1 r275 sensor).Inv ∧
      SensorStep (p1 r275 sensor) (nextOf (p1 r275 sensor)) ∧ (p1 r275 sensor).now.frame.state = Fc.interFrame ∧
      (nextOf (p1 r275 sensor)).now.frame.state ≠ Fc.interFrame ∧ (p1 r186 reset).draw.turn = .reset ∧
      (after (step (p1 r186 reset))).isSome = true :=
  ⟨test_inv_r186 _, test_sensor_steps.2.2.2.2.1.next, by decide, by decide, test_inv_r275 _,
    test_sensor_steps.2.2.2.2.2.2.2, rfl, by decide, rfl, by decide⟩

theorem test_witness_SerializerLoadsAndEnds :
    (p1 r100 sensor).now.cmdQ = 0x2008 :: [0x2009, 0x200A, 0x200B, 0x200C] ∧ (p1 r186 sensor).now.biasQ = 0x41 :: [] :=
  ⟨rfl, rfl⟩

theorem test_witness_SerializerShifts :
    (p1 r43 sensor).sensorRst = false ∧ (p1 r43 sensor).now.cmdSer.haveWord = true ∧
      (p1 r186 sensor).sensorRst = false ∧ (p1 r186 sensor).now.biasSer.haveWord = true := by decide

theorem test_witness_WordsAreNeverDelayed :
    SensorStep (p1 { r0 with cmdQ := [1], biasQ := [0x53] } sensor)
        (nextOf (p1 { r0 with cmdQ := [1], biasQ := [0x53] } sensor)) ∧
      r0.cmdSer.haveWord = false ∧ r0.biasSer.haveWord = false ∧
      SensorStep (p1 r0 sensor) (nextOf (p1 r0 sensor)) ∧ r0.cmdQ = [] ∧ r0.biasQ = [] :=
  ⟨sensorStep_of (by decide) rfl rfl (by decide) (by decide), rfl, rfl, test_sensor_steps.1, rfl, rfl⟩

theorem test_witness_SerialLinesSendEveryBit :
    (p1 r43 sensor).Inv ∧ (p1 r43 sensor).sensorRst = false ∧
      SensorStep (p1 r43 sensor) (nextOf (p1 r43 sensor)) ∧ (p1 r275 sensor).Inv ∧
      (p1 r275 sensor).now.cmdQ = [] ∧ SensorStep (p1 r275 sensor) (nextOf (p1 r275 sensor)) :=
  ⟨test_inv_r43 _, by decide, test_sensor_steps.2.2.1, test_inv_r275 _, rfl, test_sensor_steps.2.2.2.2.2.2.2⟩

/-- The registers of the cycle before the first capture. -/
def r196 : Regs := { r197 with
  frame := ⟨Fc.readLine, 0, 11, 12, 0⟩, des := ⟨2730, 981, 12, 0, 0, false, .evenLow⟩, cycle := 196 }

theorem test_inv_r196 (d : Draw) : (p1 r196 d).Inv :=
  inv_of rfl (by unfold Frame.Ok; decide) (by unfold Injector.Ok; decide) (by unfold Serializer.Ok; exact ⟨rfl, rfl⟩)
    (by unfold Serializer.Ok; exact ⟨rfl, rfl⟩) (by unfold Deserializer.Ok; decide) (by decide)

theorem test_witness_CapturePeriods :
    ((p1 r213 sensor).Inv ∧ SensorStep (p1 r213 sensor) (nextOf (p1 r213 sensor)) ∧ r213.latchEn = false) ∧
      ((p1 r196 sensor).Inv ∧ SensorStep (p1 r196 sensor) (nextOf (p1 r196 sensor)) ∧ r196.latchEn = true ∧
        r196.des.dcnt = 12) ∧
      (p1 r197 sensor).Inv ∧ SensorStep (p1 r197 sensor) (nextOf (p1 r197 sensor)) ∧ r197.latchEn = true ∧
        r197.des.dcnt = 13 :=
  ⟨⟨test_inv_r213 _, test_sensor_steps.2.2.2.2.2.2.1, rfl⟩,
    ⟨test_inv_r196 _, sensorStep_of (by decide) rfl rfl (by decide) (by decide), rfl, rfl⟩,
    test_inv_r197 _, test_sensor_steps.2.2.2.2.2.1, rfl, rfl⟩

theorem test_witness_CaptureFollowsTheLine :
    (p1 r197 sensor).Inv ∧ r197.Aligned Config.p1 ∧ r197.captures = true ∧
      step (p1 r197 sensor) = .next (nextOf (p1 r197 sensor)) ∧ (p1 r186 sensor).Inv ∧ r186.Aligned Config.p1 :=
  ⟨test_inv_r197 _, ⟨fun _ => rfl, fun h => absurd h (by decide), fun h => absurd rfl h⟩, rfl,
    test_sensor_steps.2.2.2.2.2.1.next, test_inv_r186 _,
    ⟨fun _ => rfl, fun h => absurd h (by decide), fun h => absurd rfl h⟩⟩

/-- P3: the seven bits left over when COLS is odd; and the first InterFrame cycle of P1. -/
theorem test_witness_MisalignedCaptureIsSilent :
    (stateOf p3 r205 sensor).Inv ∧ SensorStep (stateOf p3 r205 sensor) (nextOf (stateOf p3 r205 sensor)) ∧
      r205.latchEn = false ∧ r205.des.haveData = false ∧ r205.Aligned p3 ∧ r205.frame.state = Fc.waitLine ∧
      r205.frame.lineCnt = 0 ∧
      ({ r275 with frame := ⟨Fc.interFrame, 0, 0, 0, 0⟩ } : Regs).Aligned Config.p1 :=
  ⟨inv_of rfl (by unfold Frame.Ok; decide) (by unfold Injector.Ok; decide)
      (by unfold Serializer.Ok; exact ⟨rfl, rfl⟩) (by unfold Serializer.Ok; exact ⟨rfl, rfl⟩)
      (by unfold Deserializer.Ok; decide) (by decide),
    sensorStep_of (by decide) rfl rfl (by decide) (by decide), rfl, rfl,
    ⟨fun h => absurd h (by decide), fun _ _ => rfl, fun _ h => absurd ⟨.inl rfl, rfl⟩ h⟩, rfl, rfl,
    ⟨fun h => absurd h (by decide), fun _ _ => rfl, fun _ h => absurd ⟨.inr rfl, rfl⟩ h⟩⟩

theorem test_witness_EmitBytes :
    (p1 { r213 with bridgeQ := List.replicate 7 0 } sensor).now.bridgeQ.length < Config.p1.bridgeDepth ∧
      (p1 { r213 with bridgeQ := List.replicate 7 0 } sensor).bwRdy = true ∧
      (p1 { r213 with bridgeQ := List.replicate 8 0 } sensor).bwRdy = false := by decide

theorem test_witness_StalledEmitterWaits :
    let d := { sensor with bwSees := false }
    let c := p1 { r197 with des := ⟨0, 0, 13, 1, 2, true, .oddHigh⟩ } d
    (SensorStep (p1 r213 d) (nextOf (p1 r213 d)) ∧ r213.des.haveData = true ∧ (p1 r213 d).bwRdy = false ∧
        r213.captures = false) ∧
      SensorStep c (nextOf c) ∧ c.now.des.haveData = true ∧ c.bwRdy = false ∧ c.now.captures = true :=
  ⟨⟨sensorStep_of (by decide) rfl rfl (by decide) (by decide), rfl, rfl, rfl⟩,
    sensorStep_of (by decide) rfl rfl (by decide) (by decide), rfl, rfl, rfl⟩

theorem test_witness_RecordsLeaveInOrder :
    SensorStep (p1 r213 sensor) (nextOf (p1 r213 sensor)) ∧ r213.captures = false ∧
      r213.des.pendingBytes = [0x00, 0x34, 0x12] ∧ (nextOf (p1 r197 sensor)).now.des.haveData = true ∧
      (nextOf (p1 r197 sensor)).now.des.emitSt = .evenLow :=
  ⟨test_sensor_steps.2.2.2.2.2.2.1, rfl, by decide, rfl, rfl⟩

theorem test_witness_OverrunTearsTheRecord :
    let c := p1 { r197 with des := ⟨0, 0, 13, 1, 2, true, .oddHigh⟩ } sensor
    let e := p1 { r197 with des := ⟨0, 0, 13, 1, 2, true, .oddLow⟩ } sensor
    SensorStep c (nextOf c) ∧ c.now.captures = true ∧ c.now.des.pendingBytes.tail = [] ∧
      SensorStep e (nextOf e) ∧ e.now.captures = true ∧ e.now.des.pendingBytes.tail ≠ [] :=
  ⟨sensorStep_of (by decide) rfl rfl (by decide) (by decide), rfl, by decide,
    sensorStep_of (by decide) rfl rfl (by decide) (by decide), rfl, by decide⟩

/-- The states in which the sensor cycles of a script start. -/
def cycleStarts : Nat → State → List State
  | 0, _ => []
  | n + 1, s => s :: cycleStarts n (nextOf s)

/-- The state after them. -/
def cyclesEnd : Nat → State → State
  | 0, s => s
  | n + 1, s => cyclesEnd n (nextOf s)

/-- What makes a cycle one of a line, but for the configuration. -/
def inLine (s : State) : Bool :=
  s.now.latchEn && s.now.fault.isNone && s.draw.turn == .sensor && !s.sensorRst && (Rtl.fault s).isNone

theorem lineRun_of : ∀ (n : Nat) (s : State), s.cfg.Valid → (cycleStarts n s).all inLine = true →
    LineRun s (cycleStarts n s) (cyclesEnd n s)
  | 0, s, _, _ => .refl s
  | n + 1, s, hv, h => by
    simp only [cycleStarts, List.all_cons, Bool.and_eq_true] at h
    obtain ⟨hs, h⟩ := h
    simp only [inLine, Bool.and_eq_true, Option.isNone_iff_eq_none, beq_iff_eq, State.sensorRst,
      Bool.not_eq_eq_eq_not, Bool.not_true, decide_eq_false_iff_not, not_lt] at hs
    obtain ⟨⟨⟨⟨hl, hf⟩, ht⟩, hr⟩, hn⟩ := hs
    exact .sensor hl (sensorStep_of hv hf ht hr hn) (lineRun_of n _ hv h)

/-- Cycle 198 of P1, after the first capture: the second half of line 0. -/
def s198 (script : List Draw) : State :=
  { p1 { r6 with
      frame := ⟨Fc.readLine, 0, 11, 14, 0⟩, des := ⟨0, 0, 0, 0x1555, 0x0ABC, true, .evenLow⟩
      bridgeQ := [1, 2, 3, 4], cycle := 198 } sensor with script := script }

/-- A bridging queue with just enough room, and a `bw_rdy` in the last four or the last three of the 14 cycles. -/
theorem test_witness_NoOverrunWithSpace_line :
    let room := s198 (List.replicate 14 sensor)
    let late (n : Nat) := s198 (List.replicate n { sensor with bwSees := false } ++ List.replicate (14 - n) sensor)
    (LineRun room (cycleStarts 14 room) (cyclesEnd 14 room) ∧ room.now.des.dcnt = 0 ∧
      (cycleStarts 14 room).all (·.draw.bwSees) = true ∧
      room.now.bridgeQ.length + room.now.des.pendingBytes.length = room.cfg.bridgeDepth) ∧
    ∀ n ∈ [10, 11], LineRun (late n) (cycleStarts 14 (late n)) (cyclesEnd 14 (late n)) ∧
      (cycleStarts 14 (late n)).length = 14 ∧ (late n).now.des.dcnt = 0 ∧
      (cycleStarts 14 (late n)).countP (·.bwRdy) = 14 - n := by
  refine ⟨⟨lineRun_of 14 _ (by decide) (by decide), rfl, by decide, by decide⟩, ?_⟩
  intro n hn
  simp only [List.mem_cons, List.not_mem_nil, or_false] at hn
  rcases hn with rfl | rfl <;>
    exact ⟨lineRun_of 14 _ (by decide) (by decide), by decide, rfl, by decide⟩

/-- As far behind as an emission may be: three bytes sent, three bits accumulated. -/
theorem test_witness_NoOverrunWithSpace :
    let s := p1 { r186 with frame := ⟨Fc.readLine, 0, 11, 17, 0⟩, des := ⟨0, 0, 3, 1, 2, true, .oddHigh⟩ } sensor
    s.Inv ∧ SensorStep s (nextOf s) ∧ s.now.des.Ahead ∧ s.bwRdy = true :=
  ⟨inv_of rfl (by unfold Frame.Ok; decide) (by unfold Injector.Ok; decide)
      (by unfold Serializer.Ok; exact ⟨rfl, rfl⟩) (by unfold Serializer.Ok; exact ⟨by decide, by decide, rfl⟩)
      (by unfold Deserializer.Ok; decide) (by decide),
    sensorStep_of (by decide) rfl rfl (by decide) (by decide), fun _ => by decide, rfl⟩

theorem test_witness_LanesMatterOnlyInReadLine :
    ((p1 r213 sensor).script = sensor :: [] ∧ r213.latchEn = false) ∧
      ((p1 { r186 with rstCnt := 6 } sensor).script = sensor :: [] ∧
        (p1 { r186 with rstCnt := 6 } sensor).sensorRst = true) ∧
      (p1 r186 host).script = host :: [] ∧ host.turn ≠ .sensor := by decide

theorem test_witness_PowerupWaitsForReady :
    ((p1 r6 sensor).now.ready = true ∧ (p1 r0 sensor).now.ready = false) ∧
      (SensorStep (p1 r6 sensor) (nextOf (p1 r6 sensor)) ∧ r6.frame.state = Fc.powerup ∧
        r6.power.state = .boostEnabled) ∧
      (SensorStep (p1 r0 sensor) (nextOf (p1 r0 sensor)) ∧ r0.power.state ≠ .boostEnabled) ∧
      ((p1 r6 sensor).Inv ∧ r6.OnTime Config.p1 ∧ r6.cycle = Config.p1.readyCycle) ∧
      step (p1 r186 sensor) = .next (nextOf (p1 r186 sensor)) ∧ sensor.turn ≠ .reset ∧ (p1 r186 sensor).Running ∧
      r186.frame.state ≠ Fc.powerup :=
  ⟨⟨rfl, rfl⟩, ⟨test_sensor_steps.2.1, rfl, rfl⟩, ⟨test_sensor_steps.1, by decide⟩,
    ⟨inv_of rfl (by unfold Frame.Ok; decide) (by unfold Injector.Ok; decide)
      (by unfold Serializer.Ok; exact ⟨rfl, rfl⟩) (by unfold Serializer.Ok; exact ⟨rfl, rfl⟩)
      (by unfold Deserializer.Ok; decide) (by decide),
      ⟨by decide, by decide, fun h => absurd rfl h⟩, by decide⟩,
    test_sensor_steps.2.2.2.2.1.next, by decide, by decide, by decide⟩

theorem test_witness_CommandWordsArePushed :
    let full := p1 { r43 with cmdQ := List.replicate 9 0 } sensor
    (p1 r43 sensor).cfg.Valid ∧ (p1 r43 sensor).now.cmdQ.length + 1 = (p1 r43 sensor).cfg.cmdQDepth ∧
      full.cfg.cmdQDepth ≤ full.now.cmdQ.length ∧ full.nxt.fault = none := by decide

theorem test_witness_StrobeIsOneCycle :
    SensorStep (p1 r43 sensor) (nextOf (p1 r43 sensor)) ∧ r43.frame.state = Fc.sendCmd ∧
      SensorStep (p1 { r43 with frame := ⟨Fc.sendCmdStrobe, 0, 11, 0, 0⟩ } sensor)
        (nextOf (p1 { r43 with frame := ⟨Fc.sendCmdStrobe, 0, 11, 0, 0⟩ } sensor)) :=
  ⟨test_sensor_steps.2.2.1, rfl, sensorStep_of (by decide) rfl rfl (by decide) (by decide)⟩

theorem test_witness_WaitsCountAndTrigger :
    r100.cmdDone = false ∧ (r181.cmdDone = true ∧ r181.frame.lineCnt + 2 + 1 = Config.p1.cmdToLineStart ∧
        r181.inj.active = false) ∧
      r213.frame.lineCnt + 2 + 1 = Config.p1.lineStartOffset ∧
      ({ r213 with inj := ⟨true, true, 2⟩ } : Regs).inj.active = true ∧
      (p1 { r213 with inj := ⟨true, true, 2⟩ } sensor).nxt.fault = none ∧
      3 + Config.p1.biasToLatch + 1 ≠ Config.p1.lineStartOffset := by decide

theorem test_witness_BiasIdleChangesNothing :
    SensorStep (p1 r275 sensor) (nextOf (p1 r275 sensor)) ∧ r275.inj.active = false ∧
      (p1 r275 sensor).biasTrigger = false ∧ (p1 r275 sensor).Inv ∧
      step (p1 r275 sensor) = .next (nextOf (p1 r275 sensor)) ∧ (nextOf (p1 r275 sensor)).now.inj.active = false :=
  ⟨test_sensor_steps.2.2.2.2.2.2.2, rfl, by decide, test_inv_r275 _, test_sensor_steps.2.2.2.2.2.2.2.next, rfl⟩

theorem test_witness_BurstsWriteAndStrobe :
    let last := p1 { r186 with biasQ := [1, 2, 3] } sensor
    let full := p1 { r186 with biasQ := [1, 2, 3, 4] } sensor
    last.cfg.Valid ∧ last.now.biasQ.length < last.cfg.biasQDepth ∧
      full.cfg.biasQDepth ≤ full.now.biasQ.length ∧ full.nxt.fault = none := by decide

theorem test_witness_ControlIgnoresHostAndLanes :
    let s' := p1 { r186 with des := r197.des, bridgeQ := [1], hostStream := [2] } { sensor with laneE := true }
    ((p1 r186 sensor).SensorCycle ∧ s'.SensorCycle ∧ s'.cfg = (p1 r186 sensor).cfg ∧
        (p1 r186 sensor).now.SameControl s'.now ∧ step s' = .next (nextOf s')) ∧
      (p1 r186 host).draw.turn = .host ∧ (after (step (p1 r186 host))).isSome = true ∧
      SensorStep (p1 r6 sensor) (nextOf (p1 r6 sensor)) ∧ r6.ready = true ∧
      r186.frame.state ≠ Fc.waitFrameStart :=
  ⟨⟨⟨by decide, rfl, rfl, by decide⟩, ⟨by decide, rfl, rfl, by decide⟩, rfl,
      ⟨rfl, rfl, rfl, rfl, rfl, rfl, rfl, rfl, rfl⟩,
      (sensorStep_of (by decide) rfl rfl (by decide) (by decide)).next⟩,
    rfl, by decide, test_sensor_steps.2.1, rfl, by decide⟩

/-- A state of P1 that is neither sending nor waiting for the frame start, with nothing left to send. -/
theorem cmdSchedule_of_done {r : Regs} (hs : 5 ≤ r.frame.state.toNat ∨ r.frame.state.toNat ≤ 1)
    (hd : r.cmdDone = true) : r.CmdSchedule where
  sending := fun e h => by
    exfalso; rcases h with ⟨h, -⟩ | ⟨h, -⟩ | ⟨h, -⟩ <;> rw [h] at hs <;> revert hs <;> decide
  waiting := fun _ => .inr hd
  elsewhere := fun _ => hd

/-- SendCmd of word 11, 32 cycles after the first load. -/
theorem test_schedule_r43 : r43.CmdSchedule where
  sending := fun e h => by
    rcases h with ⟨-, h⟩ | ⟨h, -⟩ | ⟨h, -⟩
    · subst h; exact ⟨by decide, by decide, by decide⟩
    · exact absurd h (by decide)
    · exact absurd h (by decide)
  waiting := fun h => absurd h (by decide)
  elsewhere := fun h => absurd h (by decide)

/-- The wait for `cmd_done`, 89 cycles after the first load. -/
theorem test_schedule_r100 : r100.CmdSchedule where
  sending := fun e h => by
    rcases h with ⟨h, -⟩ | ⟨h, -⟩ | ⟨h, -⟩ <;> exact absurd h (by decide)
  waiting := fun _ => .inl ⟨rfl, 89, by decide, by decide, by decide, by decide, by decide⟩
  elsewhere := fun h => absurd h (by decide)

theorem test_schedule_r181 : r181.CmdSchedule := cmdSchedule_of_done (.inl (by decide)) (by decide)

theorem test_schedule_r186 : r186.CmdSchedule := cmdSchedule_of_done (.inl (by decide)) (by decide)

theorem test_witness_CommandScheduleIsKept :
    ((p1 r43 sensor).Inv ∧ r43.CmdSchedule ∧ step (p1 r43 sensor) = .next (nextOf (p1 r43 sensor))) ∧
      ((p1 r100 sensor).Inv ∧ r100.CmdSchedule ∧ step (p1 r100 sensor) = .next (nextOf (p1 r100 sensor))) ∧
      ((p1 r181 sensor).Inv ∧ r181.CmdSchedule) ∧ (p1 r186 sensor).Inv ∧ r186.CmdSchedule ∧
      9 ≤ Config.p1.cmdQDepth ∧ r43.fault = none :=
  ⟨⟨test_inv_r43 _, test_schedule_r43, test_sensor_steps.2.2.1.next⟩,
    ⟨test_inv_r100 _, test_schedule_r100, test_sensor_steps.2.2.2.1.next⟩,
    ⟨test_inv_r181 _, test_schedule_r181⟩, test_inv_r186 _, test_schedule_r186, by decide, rfl⟩

/-- A host step that ends the hold and the sensor cycle 0, under a hold of one step. -/
theorem test_witness_ShallowCommandQueueFaults :
    let s := { State.resetOf { Config.p1 with cmdQDepth := 8, rstHold := 1 } with script := [host, sensor] }
    let t := (s.setRegs { Regs.reset with rstCnt := 1 }).nextDraw
    s.cfg.Valid ∧ s.cfg.cmdQDepth ≤ 8 ∧ s.now = Regs.reset ∧ FaultFreeRun s (nextOf t) ∧
      (nextOf t).now.cycle = 1 ∧ (nextOf t).now.power = ⟨.init, 1⟩ := by
  intro s t
  have h : step s = .next t := (step_host (by decide) rfl rfl).trans rfl
  have h' : SensorStep t (nextOf t) := sensorStep_of (by decide) rfl rfl (by decide) (by decide)
  exact ⟨by decide, by decide, rfl,
    .step (.step (.refl _) (by decide) h rfl) (by decide) h'.next h'.noFault, by decide, by decide⟩

theorem test_witness_BurstsKeepTheirAge :
    (p1 r186 sensor).Inv ∧ r186.CmdSchedule ∧ r186.BiasSchedule Config.p1 ∧ r186.inj.active = true ∧
      2 * Config.p1.biasWrites + 1 ≤ Config.p1.lineCycles + Config.p1.lineStartOffset ∧
      step (p1 r186 sensor) = .next (nextOf (p1 r186 sensor)) :=
  ⟨test_inv_r186 _, test_schedule_r186, fun _ => by decide, rfl, by decide, test_sensor_steps.2.2.2.2.1.next⟩

/-- A burst of the greatest length R152 allows with ROWS = 1, in the first cycle of the next frame: 62 cycles old. -/
theorem test_witness_BurstsKeepTheirAge_one_row :
    let s := stateOf { Config.p1 with rows := 1, biasWrites := 118 }
      { r6 with frame := ⟨Fc.init, 0, 0, 0, 0⟩, inj := ⟨true, false, 31⟩ } sensor
    s.Inv ∧ s.now.CmdSchedule ∧ s.now.BiasScheduleOneRow s.cfg ∧ s.now.inj.active = true ∧ s.cfg.rows = 1 ∧
      2 * s.cfg.biasWrites + 1 = s.cfg.framePeriod ∧ step s = .next (nextOf s) :=
  ⟨inv_of rfl (by unfold Frame.Ok; decide) (by unfold Injector.Ok; decide)
      (by unfold Serializer.Ok; exact ⟨rfl, rfl⟩) (by unfold Serializer.Ok; exact ⟨rfl, rfl⟩)
      (by unfold Deserializer.Ok; decide) (by decide),
    cmdSchedule_of_done (.inr (by decide)) (by decide), fun _ => ⟨by decide, by decide⟩, rfl, rfl, by decide,
    (sensorStep_of (by decide) rfl rfl (by decide) (by decide)).next⟩

theorem test_witness_BiasStreamIsKept :
    (p1 r186 sensor).Inv ∧ r186.CmdSchedule ∧ r186.BiasStream Config.p1 ∧
      7 * Config.p1.biasWrites ≤ Config.p1.lineCycles + Config.p1.lineStartOffset ∧
      step (p1 r186 sensor) = .next (nextOf (p1 r186 sensor)) ∧ Config.p1.biasWrites ≠ 1 ∧
      Config.p1.biasWrites < Config.p1.biasQDepth + 2 + (2 * Config.p1.biasWrites - 4) / 7 :=
  ⟨test_inv_r186 _, test_schedule_r186,
    { burst := fun p h => by
        obtain rfl : p = 4 := by
          rw [show r186.frame.burstAge Config.p1 = some 4 by decide] at h; injection h with h; exact h.symm
        exact ⟨by decide, fun _ => by decide, by decide, by decide, by decide⟩
      idle := fun h => absurd h (by decide) },
    by decide, test_sensor_steps.2.2.2.2.1.next, by decide, by decide⟩

theorem test_ontime_r186 : r186.OnTime Config.p1 := ⟨by decide, by decide, fun _ => by decide⟩

theorem test_ontime_r100 : r100.OnTime Config.p1 := ⟨by decide, by decide, fun _ => by decide⟩

theorem test_witness_RunStaysOnTime :
    ((p1 r186 sensor).Inv ∧ r186.CmdSchedule ∧ r186.OnTime Config.p1 ∧
      step (p1 r186 sensor) = .next (nextOf (p1 r186 sensor))) ∧
      (p1 r100 sensor).Inv ∧ r100.CmdSchedule ∧ r100.OnTime Config.p1 :=
  ⟨⟨test_inv_r186 _, test_schedule_r186, test_ontime_r186, test_sensor_steps.2.2.2.2.1.next⟩,
    test_inv_r100 _, test_schedule_r100, test_ontime_r100⟩

/-- The first word pushed, the trigger, and the first and the last cycle of a line. -/
theorem test_witness_FrameEventsByPosition :
    (p1 r186 sensor).cfg.Valid ∧ (p1 r186 sensor).Inv ∧ r186.CmdSchedule ∧ r186.frame.state ≠ Fc.powerup ∧
      r181.framePos Config.p1 + Config.p1.biasToLatch + 1 = Config.p1.lineStart 0 ∧
      r43.framePos Config.p1 = Config.p1.initCycles + 3 * 11 ∧
      r186.framePos Config.p1 = Config.p1.lineStart 0 + 2 := by
  exact ⟨by decide, test_inv_r186 _, test_schedule_r186, by decide, by decide, by decide, by decide⟩

/-- Cycle 11 of P1: the CommandSerializer loads word 0. -/
def r11 : Regs := { r6 with frame := ⟨Fc.sendCmdStrobe, 0, 0, 0, 0⟩, cmdQ := [0x2001], cycle := 11 }

/-- Cycle 184: the first one of line 0. -/
def r184 : Regs := { r6 with
  frame := ⟨Fc.readLine, 0, 11, 0, 0⟩, inj := ⟨true, false, 1⟩, biasSer := ⟨0b0000010, true, 1⟩, cycle := 184 }

theorem test_inv_r11 (d : Draw) : (p1 r11 d).Inv :=
  inv_of rfl (by unfold Frame.Ok; decide) (by unfold Injector.Ok; decide) (by unfold Serializer.Ok; exact ⟨rfl, rfl⟩)
    (by unfold Serializer.Ok; exact ⟨rfl, rfl⟩) (by unfold Deserializer.Ok; decide) (by decide)

theorem test_inv_r184 (d : Draw) : (p1 r184 d).Inv :=
  inv_of rfl (by unfold Frame.Ok; decide) (by unfold Injector.Ok; decide) (by unfold Serializer.Ok; exact ⟨rfl, rfl⟩)
    (by unfold Serializer.Ok; exact ⟨by decide, by decide, rfl⟩) (by unfold Deserializer.Ok; decide) (by decide)

theorem test_schedule_r11 : r11.CmdSchedule where
  sending := fun e h => by
    rcases h with ⟨h, -⟩ | ⟨-, h⟩ | ⟨h, -⟩
    · exact absurd h (by decide)
    · subst h; exact ⟨by decide, by decide, by decide⟩
    · exact absurd h (by decide)
  waiting := fun h => absurd h (by decide)
  elsewhere := fun h => absurd h (by decide)

/-- The idle line in cycle 6, the first bit in cycle 11, word 6 in cycle 100, the wait in cycle 181, line 0 in cycle
184 (spec/95_test_vectors.md section 3). -/
theorem test_witness_LatenciesOfTheFirstFrame :
    ((p1 r6 sensor).Inv ∧ (p1 r6 sensor).Running ∧ r6.CmdSchedule ∧ r6.OnTime Config.p1) ∧
      ((p1 r11 sensor).Inv ∧ r11.CmdSchedule ∧ r11.OnTime Config.p1 ∧
        r11.cycle = Config.p1.readyCycle + Config.p1.initCycles + 2 ∧ (p1 r11 sensor).pins.cmdOut = true) ∧
      ((p1 r100 sensor).Inv ∧ r100.CmdSchedule ∧ r100.OnTime Config.p1) ∧
      ((p1 r181 sensor).Inv ∧ r181.CmdSchedule ∧ r181.OnTime Config.p1 ∧
        Config.p1.readyCycle + Config.p1.initCycles + 170 ≤ r181.cycle) ∧
      (p1 r184 sensor).Inv ∧ r184.CmdSchedule ∧ r184.OnTime Config.p1 ∧
        r184.cycle = Config.p1.readyCycle + Config.p1.initCycles + 170 + Config.p1.cmdToLineStart :=
  ⟨⟨inv_of rfl (by unfold Frame.Ok; decide) (by unfold Injector.Ok; decide)
      (by unfold Serializer.Ok; exact ⟨rfl, rfl⟩) (by unfold Serializer.Ok; exact ⟨rfl, rfl⟩)
      (by unfold Deserializer.Ok; decide) (by decide),
      by decide, cmdSchedule_of_done (.inr (by decide)) (by decide), by decide, by decide, fun h => absurd rfl h⟩,
    ⟨test_inv_r11 _, test_schedule_r11, ⟨by decide, by decide, fun _ => by decide⟩, by decide, by decide⟩,
    ⟨test_inv_r100 _, test_schedule_r100, test_ontime_r100⟩,
    ⟨test_inv_r181 _, test_schedule_r181, ⟨by decide, by decide, fun _ => by decide⟩, by decide⟩,
    test_inv_r184 _, cmdSchedule_of_done (.inl (by decide)) (by decide),
    ⟨by decide, by decide, fun _ => by decide⟩, by decide⟩

theorem test_witness_Host :
    (p1 r6 host).sensorRst = false ∧ (p1 r6 host).now.bridgeQ = [] ∧
      (p1 { r6 with bridgeQ := [0x55] } host).now.bridgeQ = 0x55 :: [] ∧
      (p1 { r6 with bridgeQ := [0x55] } host).brRdy = true ∧
      (p1 { r6 with bridgeQ := [0x55] } host).draw.turn = .host ∧
      (after (step (p1 { r6 with bridgeQ := [0x55] } host))).isSome = true := by decide

theorem test_witness_HoldFlushesAndCounts :
    (after (step (p1 { r0 with rstCnt := 6 } host))).isSome = true ∧ 6 < Config.p1.rstHold ∧
      (after (step (p1 r0 host))).isSome = true ∧ Config.p1.rstHold ≤ r0.rstCnt := by decide

theorem test_witness_QueuesDeliverInOrder :
    SensorStep (p1 r43 sensor) (nextOf (p1 r43 sensor)) ∧
      (after (step (p1 { r43 with bridgeQ := [1, 2] } host))).isSome = true ∧ (p1 r43 host).draw.turn = .host ∧
      (p1 r43 host).Running :=
  ⟨test_sensor_steps.2.2.1, by decide, rfl, by decide⟩

theorem test_witness_DomainsShareOnlyTheBridge :
    let s' := p1 { r186 with rstCnt := 8, hostStream := [1] } sensor
    (after (step (p1 r43 host))).isSome = true ∧ (after (step (p1 r186 host))).isSome = true ∧
      r186.bridgeQ = r43.bridgeQ ∧ (p1 r186 sensor).SensorCycle ∧ s'.SensorCycle ∧
      s'.now = { (p1 r186 sensor).now with rstCnt := 8, hostStream := [1] } ∧ (after (step s')).isSome = true :=
  ⟨by decide, by decide, rfl, ⟨by decide, rfl, rfl, by decide⟩, ⟨by decide, rfl, rfl, by decide⟩, rfl, by decide⟩

/-- A sensor cycle for each fault, and for none. -/
theorem test_witness_FaultsArePrecise :
    (p1 r186 sensor).SensorCycle ∧ (stateOf { Config.p1 with biasQDepth := 1 } r186 sensor).SensorCycle ∧
      (stateOf { Config.p1 with cmdQDepth := 8 } r43 sensor).SensorCycle ∧
      (p1 { r213 with inj := ⟨true, true, 2⟩ } sensor).SensorCycle ∧
      (p1 { r6 with frame := ⟨9, 0, 0, 0, 0⟩ } sensor).SensorCycle ∧ (p1 r186 host).draw.turn ≠ .sensor ∧
      (p1 { r186 with rstCnt := 6 } sensor).sensorRst = true :=
  ⟨⟨by decide, rfl, rfl, by decide⟩, ⟨by decide, rfl, rfl, by decide⟩, ⟨by decide, rfl, rfl, by decide⟩,
    ⟨by decide, rfl, rfl, by decide⟩, ⟨by decide, rfl, rfl, by decide⟩, by decide, by decide⟩

/-- One block under a valid configuration, under another one, and under an invalid one. -/
theorem test_witness_ConfigurationIsAParameter :
    let b := (p1 r186 sensor).toBlock
    Config.p1.Valid ∧ stepUnder Config.p1 b = .next (nextOf (p1 r186 sensor)).toBlock ∧
      step (b.under { Config.p1 with cols := 5 }) = .next (nextOf (b.under { Config.p1 with cols := 5 })) ∧
      ({ Config.p1 with cols := 1 } : Params).firstFailed = some .cols :=
  ⟨by decide, by rfl, (sensorStep_of (by decide) rfl rfl (by decide) (by decide)).next, by decide⟩

theorem test_witness_ConfigurationIsConstant :
    step (p1 r186 sensor) = .next (nextOf (p1 r186 sensor)) := test_sensor_steps.2.2.2.2.1.next

theorem test_witness_ResetLeavesTheResetValues :
    (p1 r0 sensor).sensorRst = false ∧ (p1 r0 sensor).now.SensorAtReset ∧ r0.cmdQ = [] ∧ r0.biasQ = [] :=
  ⟨by decide, ⟨rfl, rfl, rfl, rfl, rfl, rfl⟩, rfl, rfl⟩

theorem test_witness_HeldAndReset :
    (after (step (p1 r186 reset))).isSome = true ∧ (p1 r186 reset).draw.turn = .reset ∧
      (after (step (p1 { r0 with rstCnt := 6 } sensor))).isSome = true ∧
      (p1 { r0 with rstCnt := 6 } sensor).sensorRst = true := by decide

theorem test_witness_StepKeepsTheInvariant :
    (p1 r186 sensor).Inv ∧ step (p1 r186 sensor) = .next (nextOf (p1 r186 sensor)) :=
  ⟨test_inv_r186 _, test_sensor_steps.2.2.2.2.1.next⟩

theorem test_witness_OrderOfUnitsIsIrrelevant :
    (p1 r186 sensor).SensorCycle ∧ (p1 r186 sensor).fetch.reverse.Perm (p1 r186 sensor).fetch ∧
      (p1 r186 sensor).fetch.length = 7 :=
  ⟨⟨by decide, rfl, rfl, by decide⟩, List.reverse_perm _, by decide⟩

theorem test_witness_DefaultsMeetTheBurstConditions :
    Config.p1.Valid ∧ Config.p1.biasWrites = Config.defaultBiasWrites Config.p1.cols ∧
      ({ Config.p1 with cols := 2, biasWrites := 1 } : Params).Valid := by decide

theorem test_witness_BitFunctionsAndDelays :
    1000000 ≤ 500 * 100000 ∧ 999999 * 1 < 1000000 ∧ (Params.dInit { Config.p1 with clkFreqHz := 100000, tInitUs := 500 }) = 50 := by decide

end Sys2Proof.Tests
end

section
/-! PROOF. What each unit may write (R16). -/

namespace Sys2Proof.Machine

variable {s t : State}

/-- An operation that answers a next state is legal. -/
theorem legal_of_exec {i : Instr} (h : exec i s = .next t) : s.Legal i :=
  Classical.byContradiction fun hl => exec_of_not_legal i s t hl h

/-- The opcode table lists an operation under its own format. -/
theorem mem_operations {i : Instr} {f : Format} (h : i.format = f) : i ∈ f.operations := by
  subst h
  cases i <;> simp [Instr.format, Format.operations]

/-- The bias trigger starts a burst or raises a fault; it writes nothing else (R116). -/
theorem triggered_frame (s : State) (len : Nat) (r : Regs) :
    triggered s len r = { r with inj := (triggered s len r).inj, fault := (triggered s len r).fault } := by
  unfold triggered
  split
  · split <;> rfl
  · rfl

variable (s) (r : Regs)

/-- The PowerSequencer's operations. -/
theorem effectOf_power_frame : ∀ i ∈ Format.selPs.operations,
    effectOf i s r = { r with power := (effectOf i s r).power } := by
  simp [Format.operations, Regs.setPower]

/-- The CommandSerializer's operations. -/
theorem effectOf_cmdSer_frame : ∀ i ∈ (Format.selSer .cmd).operations, s.Legal i →
    effectOf i s r = { r with cmdSer := (effectOf i s r).cmdSer, cmdQ := (effectOf i s r).cmdQ } := by
  intro i hi hl
  simp only [Format.operations, List.mem_cons, List.not_mem_nil, or_false] at hi
  rcases hi with rfl | rfl | rfl | rfl
  · rfl
  · obtain ⟨w, q, hq⟩ := List.exists_cons_of_ne_nil hl
    rw [effectOf_serLoad_cmd s r hq]; rfl
  · rfl
  · rfl

/-- The BiasSerializer's operations. -/
theorem effectOf_biasSer_frame : ∀ i ∈ (Format.selSer .bias).operations, s.Legal i →
    effectOf i s r = { r with biasSer := (effectOf i s r).biasSer, biasQ := (effectOf i s r).biasQ } := by
  intro i hi hl
  simp only [Format.operations, List.mem_cons, List.not_mem_nil, or_false] at hi
  rcases hi with rfl | rfl | rfl | rfl
  · rfl
  · obtain ⟨w, q, hq⟩ := List.exists_cons_of_ne_nil hl
    rw [effectOf_serLoad_bias s r hq]; rfl
  · rfl
  · rfl

/-- The capture operations: they leave the emit state, and count overruns (R92). -/
theorem effectOf_capture_frame : ∀ i ∈ Format.selDes.operations,
    effectOf i s r = { r with
      des := { (effectOf i s r).des with emitSt := r.des.emitSt }
      overrunCount := (effectOf i s r).overrunCount } := by
  simp [Format.operations, Regs.setDes, Regs.setOverrunCount]

/-- The emit operations: they leave the accumulators and the captured pair. -/
theorem effectOf_emit_frame : ∀ i ∈ Format.selEmit.operations, s.Legal i →
    effectOf i s r = { r with
      des := { r.des with haveData := (effectOf i s r).des.haveData, emitSt := (effectOf i s r).des.emitSt }
      bridgeQ := (effectOf i s r).bridgeQ } := by
  intro i hi hl
  simp only [Format.operations, List.mem_cons, List.not_mem_nil, or_false] at hi
  rcases hi with rfl | rfl | rfl | rfl | rfl | rfl
  · rfl
  · rfl
  · rw [effectOf_emitEvenLo r hl]; rfl
  · rw [effectOf_emitEvenHi r hl]; rfl
  · rw [effectOf_emitOddLo r hl]; rfl
  · rw [effectOf_emitOddHi r hl]; rfl

/-- The FrameController's operations; the two waits carry out the bias trigger (R116, log entry 14). -/
theorem effectOf_frame_frame : ∀ i ∈ Format.selFc.operations, s.Legal i →
    effectOf i s r = { r with
      frame := (effectOf i s r).frame, inj := (effectOf i s r).inj
      cmdQ := (effectOf i s r).cmdQ, fault := (effectOf i s r).fault } := by
  intro i hi hl
  simp only [Format.operations, List.mem_cons, List.not_mem_nil, or_false] at hi
  rcases hi with rfl | rfl | rfl | rfl | rfl | rfl | rfl | rfl | rfl
  · rw [effectOf_fcPowerup]; split <;> rfl
  · rw [effectOf_fcInit]; split <;> rfl
  · obtain ⟨w, hw⟩ : ∃ w, s.cfg.cmdWord? s.now.frame.cmdIdx = some w :=
      ⟨_, by rw [Params.cmdWord?, List.getElem?_eq_getElem hl, Option.map_some]⟩
    rw [effectOf_fcSendcmd r hw]; split <;> rfl
  · rfl
  · rw [effectOf_fcSendcmdAdvance]; split <;> rfl
  · rw [effectOf_fcWaitFrameStart]
    split
    · rw [triggered_frame]; rfl
    · rfl
  · rw [effectOf_fcReadline]; rfl
  · rw [effectOf_fcWaitline, triggered_frame]; rfl
  · rw [effectOf_fcInterframe]; rfl

/-- The bias injection's operations. -/
theorem effectOf_bias_frame : ∀ i ∈ Format.selBias.operations,
    effectOf i s r = { r with
      inj := (effectOf i s r).inj, biasQ := (effectOf i s r).biasQ, fault := (effectOf i s r).fault } := by
  intro i hi
  simp only [Format.operations, List.mem_cons, List.not_mem_nil, or_false] at hi
  rcases hi with rfl | rfl | rfl
  · rfl
  · rw [effectOf_biasWrite]; split <;> rfl
  · rw [effectOf_biasStrobe]; rfl

/-- The host agent's operations. -/
theorem effectOf_host_frame : ∀ i ∈ Format.selHost.operations, s.Legal i →
    effectOf i s r = { r with
      bridgeQ := (effectOf i s r).bridgeQ, rstCnt := (effectOf i s r).rstCnt
      hostStream := (effectOf i s r).hostStream } := by
  intro i hi hl
  simp only [Format.operations, List.mem_cons, List.not_mem_nil, or_false] at hi
  rcases hi with rfl | rfl | rfl
  · rfl
  · rfl
  · obtain ⟨b, q, hq⟩ := List.exists_cons_of_ne_nil hl
    rw [effectOf_hostXfer r hq]; rfl

/-- SENSOR.HELD writes the sensor domain's reset values (R147, log entry 9). -/
theorem effectOf_held_eq : ∀ i ∈ Format.selSensor.operations, effectOf i s r = r.heldInReset := by
  simp [Format.operations]

/-- SYS.RESET writes everything but the host stream (R145, log entries 10 and 11). -/
theorem effectOf_event_eq : ∀ i ∈ Format.event.operations,
    effectOf i s r = { Regs.reset with hostStream := r.hostStream } := by
  simp [Format.operations, Regs.setHostStream]

/-- Settles O7: what an operation schedules is its effect, and the frame of each format's operations bounds it. -/
theorem unitsWriteOnlyTheirOwn : Obligations.UnitsWriteOnlyTheirOwn := by
  refine ⟨fun i s t h => ?_, fun r => by simp [Regs.latchEn]⟩
  have hl := legal_of_exec h
  obtain rfl := exec_next_sched h
  refine ⟨rfl, ?_⟩
  split <;> rename_i hi <;> replace hi := mem_operations hi
  · exact effectOf_power_frame s s.nxt i hi
  · exact effectOf_cmdSer_frame s s.nxt i hi hl
  · exact effectOf_biasSer_frame s s.nxt i hi hl
  · exact effectOf_capture_frame s s.nxt i hi
  · exact effectOf_emit_frame s s.nxt i hi hl
  · exact effectOf_frame_frame s s.nxt i hi hl
  · exact effectOf_bias_frame s s.nxt i hi
  · exact effectOf_host_frame s s.nxt i hi hl
  · exact effectOf_held_eq s s.nxt i hi
  · exact effectOf_event_eq s s.nxt i hi

end Sys2Proof.Machine
end

section
/-! PROOF. The two clock domains share only the bridging queue (R17). -/

namespace Sys2Proof.Machine

variable {s s' t t' : State}

/-- A step on the host's turn performs the host agent's operation. -/
theorem now_of_hostStep (h : step s = .next t) (ht : s.draw.turn = .host) :
    t.now = effectOf (hostOp s.sensorRst s.hostTakes) s s.now := by
  obtain ⟨-, -, -, -, -, hx⟩ := step_inv h
  rcases hx with ⟨hr, -⟩ | ⟨-, -, hn⟩ | ⟨hs, -⟩ | ⟨hc, -⟩
  · cases ht.symm.trans hr
  · exact hn
  · cases ht.symm.trans hs
  · cases ht.symm.trans hc.turn

/-- A step on the sensor's turn holds the sensor domain in reset or is a cycle of the seven units. -/
theorem now_of_sensorTurn (h : step s = .next t) (ht : s.draw.turn = .sensor) :
    t.now = s.now.heldInReset ∨ t.now = Rtl.next s := by
  obtain ⟨-, -, -, -, -, hx⟩ := step_inv h
  rcases hx with ⟨hr, -⟩ | ⟨hh, -⟩ | ⟨-, -, -, hn⟩ | ⟨-, hn⟩
  · cases ht.symm.trans hr
  · cases ht.symm.trans hh
  · exact .inl hn
  · exact .inr hn

/-- A sensor cycle of the seven units leads to the next values. -/
theorem State.SensorCycle.now_of_step (hc : s.SensorCycle) (h : step s = .next t) : t.now = Rtl.next s := by
  rw [step_rtl hc] at h
  cases h
  rfl

/-- The host agent's operation, whichever its selector chooses, is one of `sel_host`. -/
theorem hostOp_format (hold takes : Bool) : (hostOp hold takes).format = .selHost := by
  cases hold <;> cases takes <;> rfl

/-- A host cycle writes the bridging queue and the host domain alone. -/
theorem host_effect_frame (s : State) :
    effectOf (hostOp s.sensorRst s.hostTakes) s s.now = { s.now with
      bridgeQ := (effectOf (hostOp s.sensorRst s.hostTakes) s s.now).bridgeQ
      rstCnt := (effectOf (hostOp s.sensorRst s.hostTakes) s s.now).rstCnt
      hostStream := (effectOf (hostOp s.sensorRst s.hostTakes) s s.now).hostStream } :=
  effectOf_host_frame s s.now _ (mem_operations (hostOp_format _ _)) (legal_hostOp s _)

/-- A host cycle removes from the head of the bridging queue: all of it, one byte or nothing (R121 to R123). -/
theorem host_effect_removes (s : State) :
    ∃ removed, s.now.bridgeQ = removed ++ (effectOf (hostOp s.sensorRst s.hostTakes) s s.now).bridgeQ := by
  rw [host_effect]
  split
  · exact ⟨s.now.bridgeQ, (List.append_nil _).symm⟩
  · split
    · exact ⟨s.now.bridgeQ.take 1, by simp [← List.drop_one]⟩
    · exact ⟨[], rfl⟩

/-- What a host cycle makes of the host domain is a function of the host domain, the bridging queue, the input and
the configuration. -/
theorem host_effect_congr (hd : s'.draw = s.draw) (hc : s'.cfg = s.cfg) (hq : s'.now.bridgeQ = s.now.bridgeQ)
    (hr : s'.now.rstCnt = s.now.rstCnt) (hh : s'.now.hostStream = s.now.hostStream) :
    let r := effectOf (hostOp s.sensorRst s.hostTakes) s s.now
    let r' := effectOf (hostOp s'.sensorRst s'.hostTakes) s' s'.now
    r'.bridgeQ = r.bridgeQ ∧ r'.rstCnt = r.rstCnt ∧ r'.hostStream = r.hostStream := by
  have hrst : s'.sensorRst = s.sensorRst := by simp only [State.sensorRst, hr, hc]
  have htakes : s'.hostTakes = s.hostTakes := by simp only [State.hostTakes, State.brRdy, hd, hq]
  simp only [host_effect]
  rw [hrst, htakes]
  split
  · exact ⟨rfl, congrArg (· + 1) hr, hh⟩
  · split
    · simp only [hq, hr, hh, and_self]
    · exact ⟨hq, hr, hh⟩

/-- The next values of a sensor cycle leave the host domain alone and append to the bridging queue (R95 to R98). -/
theorem rtl_next_bridge (s : State) :
    (Rtl.next s).rstCnt = s.now.rstCnt ∧ (Rtl.next s).hostStream = s.now.hostStream ∧
      ∃ added, (Rtl.next s).bridgeQ = s.now.bridgeQ ++ added := by
  cases hf : Rtl.fault s with
  | none => rw [next_of_none hf]; exact ⟨rfl, rfl, _, rfl⟩
  | some f => rw [next_of_some hf]; exact ⟨rfl, rfl, [], (List.append_nil _).symm⟩

/-- The next values are a function of the registers, the input and the configuration. -/
theorem rtl_next_congr (hn : s'.now = s.now) (hd : s'.draw = s.draw) (hc : s'.cfg = s.cfg) :
    Rtl.next s' = Rtl.next s := by
  have canonical (u : State) :
      Rtl.next u = Rtl.next (((State.resetOf u.cfg).setRegs u.now).withInput u.draw) := rfl
  rw [canonical s', canonical s, hn, hd, hc]

/-- The next values carry the host domain along and are otherwise no function of it. -/
theorem rtl_next_setHost (s : State) (n : Nat) (h : List Byte) :
    Rtl.next (s.setRegs { s.now with rstCnt := n, hostStream := h }) =
      { Rtl.next s with rstCnt := n, hostStream := h } := by
  have hfault : Rtl.fault (s.setRegs { s.now with rstCnt := n, hostStream := h }) = Rtl.fault s := rfl
  cases hf : Rtl.fault s with
  | none => rw [next_of_none hf, next_of_none (hfault.trans hf)]; rfl
  | some f => rw [next_of_some hf, next_of_some (hfault.trans hf)]; rfl

/-- Settles O49: the frames of a host cycle and of a sensor cycle, and what each is a function of. -/
theorem domainsShareOnlyTheBridge : Obligations.DomainsShareOnlyTheBridge := by
  refine ⟨fun s t h ht => ?_, fun s t h ht => ?_, fun s s' t t' h h' ht hd hc hq hr hh => ?_,
    fun s s' t t' n bytes hcyc hcyc' hd hc hn h h' => ?_⟩
  · rw [now_of_hostStep h ht]
    exact ⟨host_effect_frame s, host_effect_removes s⟩
  · rcases now_of_sensorTurn h ht with hn | hn <;> rw [hn]
    · exact ⟨rfl, rfl, [], (List.append_nil _).symm⟩
    · exact rtl_next_bridge s
  · rw [now_of_hostStep h ht, now_of_hostStep h' (hd ▸ ht)]
    exact host_effect_congr hd hc hq hr hh
  · rw [hcyc.now_of_step h, hcyc'.now_of_step h']
    calc Rtl.next s' = Rtl.next (s.setRegs { s.now with rstCnt := n, hostStream := bytes }) :=
          rtl_next_congr hn hd hc
      _ = { Rtl.next s with rstCnt := n, hostStream := bytes } := rtl_next_setHost s n bytes

end Sys2Proof.Machine
end

section
/-! PROOF. Bytes and words leave the queues in the order they came: the records (R37) and the queues (R46). -/

namespace Sys2Proof.Machine

variable {s : State}

/-! ### The bytes of a captured pair -/

/-- A sample is its low byte and the six bits of its high byte (R58). -/
theorem toNat_lowByte_highByte (v : Sample) :
    (lowByte v).toNat + 256 * (highByte v).toNat = v.toNat ∧ (highByte v).toNat < 64 := by
  have hv : v.toNat < 2 ^ 14 := v.isLt
  have hlow : (lowByte v).toNat = v.toNat % 256 := by simp [lowByte]
  have hhigh : (highByte v).toNat = v.toNat / 256 := by
    rw [highByte, BitVec.toNat_setWidth, BitVec.extractLsb'_toNat, Nat.shiftRight_eq_div_pow]
    omega
  omega

/-- The byte a cycle emits is the first of the bytes pending, with `bw_rdy`, and none without it (R37). -/
theorem emitted_toList (s : State) :
    (Rtl.emitted s).toList = if s.bwRdy then s.now.des.pendingBytes.take 1 else [] := by
  unfold Rtl.emitted Deserializer.pendingBytes
  cases s.bwRdy with
  | false => simp
  | true =>
    cases s.now.des.haveData with
    | false => rfl
    | true => cases s.now.des.emitSt <;> rfl

/-- Without a capture the captured pair stays, and it is spent when its last byte leaves (R98). -/
theorem deserializer_pair_of_not_captures (h : s.now.captures = false) :
    (Rtl.deserializer s).outE = s.now.des.outE ∧ (Rtl.deserializer s).outO = s.now.des.outO ∧
      (Rtl.deserializer s).haveData = (s.now.des.haveData && !s.emitsOddHigh) := by
  simp [Rtl.deserializer, h]

/-- A byte leaves exactly in a ready cycle with a pair to emit (R93 to R98). -/
theorem emitted_isSome (s : State) : (Rtl.emitted s).isSome = (s.now.des.haveData && s.bwRdy) := by
  unfold Rtl.emitted
  cases s.now.des.haveData && s.bwRdy
  · rfl
  · cases s.now.des.emitSt <;> rfl

/-- The emit state moves on exactly in a ready cycle with a pair to emit (R94 to R98). -/
theorem deserializer_emitSt (s : State) :
    (Rtl.deserializer s).emitSt =
      if s.now.des.haveData && s.bwRdy then Rtl.emitSucc s.now.des.emitSt else s.now.des.emitSt := by
  simp only [Rtl.deserializer, emitted_isSome]

/-- Without a capture the bytes pending are left, but for the one emitted (R37). -/
theorem pendingBytes_of_not_captures (h : s.now.captures = false) :
    (Rtl.deserializer s).pendingBytes =
      if s.bwRdy then s.now.des.pendingBytes.tail else s.now.des.pendingBytes := by
  obtain ⟨hE, hO, hd⟩ := deserializer_pair_of_not_captures h
  simp only [Deserializer.pendingBytes, hE, hO, hd, deserializer_emitSt, State.emitsOddHigh]
  cases s.now.des.haveData with
  | false => cases s.bwRdy <;> rfl
  | true =>
    cases s.bwRdy with
    | false => rfl
    | true => cases s.now.des.emitSt <;> rfl

/-- A pair whose first byte has not been emitted has its whole record pending (R58). -/
theorem pendingBytes_of_evenLow {d : Deserializer} (hd : d.haveData = true) (he : d.emitSt = .evenLow) :
    d.pendingBytes = record d.outE d.outO := by
  rw [Deserializer.pendingBytes, hd, he]; rfl

/-- Settles O25: each ready cycle moves the head of the bytes pending to the bridging queue. -/
theorem recordsLeaveInOrder : Obligations.RecordsLeaveInOrder := by
  refine ⟨fun s t h => ?_, fun d => pendingBytes_of_evenLow, toNat_lowByte_highByte⟩
  obtain ⟨hn, -, -⟩ := h.regs
  rw [hn, ← emitted_toList]
  exact ⟨rfl, pendingBytes_of_not_captures⟩

/-! ### The queues -/

/-- Out of reset a host cycle moves bytes from the bridging queue to the stream and no others (R122, R123). -/
theorem host_effect_stream (hr : s.Running) :
    (effectOf (hostOp s.sensorRst s.hostTakes) s s.now).hostStream ++
      (effectOf (hostOp s.sensorRst s.hostTakes) s s.now).bridgeQ = s.now.hostStream ++ s.now.bridgeQ := by
  rw [host_effect, if_neg (by simp [sensorRst_of_running hr])]
  split
  · rw [List.append_assoc, ← List.drop_one, List.take_append_drop]
  · rfl

/-- Settles O48: in a sensor cycle by the law of a queue's cycle, in a host cycle by what the host agent moves. -/
theorem queuesDeliverInOrder : Obligations.QueuesDeliverInOrder := by
  refine ⟨fun s t h => ?_, fun s t h ht hr => ?_⟩
  · obtain ⟨hn, -, -⟩ := h.regs
    rw [hn]
    exact ⟨take_append_queue .., take_append_queue .., rfl, rfl⟩
  · rw [now_of_hostStep h ht]
    obtain ⟨hcontrol, -⟩ := host_effect_control s
    exact ⟨host_effect_stream hr, hcontrol.cmdQ, hcontrol.biasQ⟩

end Sys2Proof.Machine
end

section
/-! PROOF. The PowerSequencer: it reads its own registers alone (R73), and BoostEnabled lasts until reset (R77). -/

namespace Sys2Proof.Machine

variable {s t : State}

/-! ### Runs -/

/-- What every step of the agents keeps holds along a fault-free run. -/
theorem FaultFreeRun.keeps {P : State → Prop}
    (hstep : ∀ {t u : State}, P t → t.draw.turn ≠ .reset → Machine.step t = .next u → P u)
    (h : FaultFreeRun s t) (hs : P s) : P t := by
  induction h with
  | refl => exact hs
  | step _ hturn hnext _ ih => exact hstep ih hturn hnext

/-! ### The power registers after a step -/

/-- A fault-free sensor cycle gives the power registers a value read from them and the configuration alone. -/
theorem SensorStep.power_eq (h : SensorStep s t) : t.now.power = Rtl.power s.cfg s.now.power := by
  obtain ⟨hn, -, -⟩ := h.regs
  rw [hn, Rtl.regs]

/-- Out of reset an agent's step leaves the power registers or gives them the PowerSequencer's next value. -/
theorem power_of_step (h : step s = .next t) (ht : s.draw.turn ≠ .reset) (hr : s.Running) :
    t.now.power = s.now.power ∨ t.now.power = Rtl.power s.cfg s.now.power := by
  obtain ⟨-, -, -, -, -, hx⟩ := step_inv h
  rcases hx with ⟨hreset, -⟩ | ⟨-, -, hn⟩ | ⟨-, -, hheld, -⟩ | ⟨-, hn⟩
  · exact absurd hreset ht
  · obtain ⟨hcontrol, -⟩ := host_effect_control s
    exact .inl (hn ▸ hcontrol.power)
  · cases (sensorRst_of_running hr).symm.trans hheld
  · cases hf : Rtl.fault s with
    | none => exact .inr (by rw [hn, next_of_none hf, Rtl.regs])
    | some f => exact .inl (by rw [hn, next_of_some hf])

/-! ### BoostEnabled -/

/-- The sensor domain is out of reset and the PowerSequencer is in BoostEnabled with `ps_cnt` 0. -/
structure State.Boosted (s : State) : Prop where
  running : s.Running
  power : s.now.power = ⟨.boostEnabled, 0⟩

/-- Only the system reset leaves BoostEnabled. -/
theorem State.Boosted.of_step (hb : s.Boosted) (ht : s.draw.turn ≠ .reset) (h : step s = .next t) : t.Boosted := by
  refine ⟨running_of_step h ht hb.running, ?_⟩
  rcases power_of_step h ht hb.running with hp | hp
  · rw [hp, hb.power]
  · rw [hp, hb.power, Rtl.power]

/-- In BoostEnabled out of reset `ready` and all rails are 1 (R72). -/
theorem State.Boosted.outputs (hb : s.Boosted) :
    s.signals.ready = true ∧ s.pins.en3v3 = true ∧ s.pins.en2v5 = true ∧ s.pins.enBoost = true := by
  rw [signals_of_running hb.running, pins_of_running hb.running]
  simp [Signals.running, Pins.running, Regs.ready, hb.power]

/-- Settles O10: PS.BOOST by its rule and its selector word, the run by the invariant `State.Boosted`. -/
theorem boostIsForever : Obligations.BoostIsForever := by
  refine ⟨fun s => rfl, rfl, fun s t hrun hr hp => ?_⟩
  have hb : t.Boosted := hrun.keeps State.Boosted.of_step ⟨hr, hp⟩
  exact ⟨hb.power, hb.outputs⟩

/-- Settles O11: the next power registers are `Rtl.power` of the two things the cycles share. -/
theorem powerHasNoInput : Obligations.PowerHasNoInput := by
  intro s s' t t' h h' hcfg hpower
  rw [h'.power_eq, h.power_eq, hcfg, hpower]

end Sys2Proof.Machine
end

section
/-! PROOF. The serializers: a queued word is loaded without delay (R86), and a word being sent is shifted out (R83). -/

namespace Sys2Proof.Machine

variable {width : Nat} {o : BitOrder} {x : Serializer width}

/-! ### A serializer with no word -/

/-- It loads the head of its queue, whose first bit leaves in the same cycle (R82). -/
theorem serializer_cons (hx : x.haveWord = false) (w : BitVec width) (q : List (BitVec width)) :
    Rtl.serializer o x (w :: q) = ⟨shift o w, true, 1⟩ := by
  simp [Rtl.serializer, hx]

/-- It keeps its registers when its queue is empty (R81). -/
theorem serializer_nil (hx : x.haveWord = false) : Rtl.serializer o x [] = x := by
  simp [Rtl.serializer, hx]

/-- The word it loads leaves the queue, to which the word pushed in the cycle is appended (R33, R82). -/
theorem queue_loads_cons (hx : x.haveWord = false) (w : BitVec width) (q : List (BitVec width))
    (push : Option (BitVec width)) :
    Rtl.queue (w :: q) (Rtl.loads x (w :: q)) push = q ++ push.toList := by
  simp [Rtl.queue, Rtl.loads, rRdy, hx]

/-- Settles O15: a fault-free sensor cycle gives each serializer and its queue their next values, and those of a
serializer with no word depend on its queue alone. -/
theorem wordsAreNeverDelayed : Obligations.WordsAreNeverDelayed := by
  intro s t h
  obtain ⟨hn, -, -⟩ := h.regs
  simp only [hn, Rtl.regs]
  refine ⟨fun w q hx hq => ?_, fun w q hx hq => ?_, fun hx hq => ?_, fun hx hq => ?_⟩ <;> rw [hq]
  · exact ⟨serializer_cons hx w q, queue_loads_cons hx w q _⟩
  · exact ⟨serializer_cons hx w q, queue_loads_cons hx w q _⟩
  · exact serializer_nil hx
  · exact serializer_nil hx

/-! ### A serializer with a word -/

/-- Its line carries the extremal bit of the shift register, whatever its queue holds (R80). -/
theorem serOut_of_haveWord (hx : x.haveWord = true) (q : List (BitVec width)) : serOut o x q = ext o x.sr := by
  simp [serOut, hx]

/-- It is not done (R80). -/
theorem serDone_of_haveWord (hx : x.haveWord = true) (q : List (BitVec width)) : serDone x q = false := by
  rw [serDone, hx]; rfl

/-- Out of reset the serial lines and the `done` signals are those of the serializers (R80). -/
theorem serial_outputs {s : State} (hr : s.sensorRst = false) :
    (s.pins.cmdOut = serOut s.cfg.cmdBitOrder s.now.cmdSer s.now.cmdQ ∧
      s.signals.cmdDone = serDone s.now.cmdSer s.now.cmdQ) ∧
    (s.pins.biasOut = serOut s.cfg.biasBitOrder s.now.biasSer s.now.biasQ ∧
      s.signals.biasDone = serDone s.now.biasSer s.now.biasQ) := by
  have hrun : s.Running := by simpa [State.sensorRst] using hr
  rw [pins_of_running hrun, signals_of_running hrun]
  exact ⟨⟨rfl, rfl⟩, rfl, rfl⟩

/-- Settles O14: SER.SHIFT by its rule and its selector words, the outputs by what a serializer with a word sends. -/
theorem serializerShifts : Obligations.SerializerShifts := by
  refine ⟨fun s => rfl, fun s => rfl, fun x => by cases x <;> decide, fun s hr hx => ?_, fun s hr hx => ?_⟩
  · obtain ⟨⟨hout, hdone⟩, -⟩ := serial_outputs hr
    exact ⟨hout.trans (serOut_of_haveWord hx _), hdone.trans (serDone_of_haveWord hx _)⟩
  · obtain ⟨-, hout, hdone⟩ := serial_outputs hr
    exact ⟨hout.trans (serOut_of_haveWord hx _), hdone.trans (serDone_of_haveWord hx _)⟩

end Sys2Proof.Machine
end

section
/-! PROOF. The SampleDeserializer: outside ReadLine the accumulation is discarded (R89), the low bytes are emitted
with space (R95, R97), and a pair waits through a stall (R94). -/

namespace Sys2Proof.Machine

variable {s : State}

/-! ### The capture selector -/

/-- A selector word whose bytes decode to an operation names that operation. -/
theorem decodeSel_of_decode {w : SelWord} {i : Instr} (h : decode w.bytes = .ok (i, [])) : decodeSel w = .ok i := by
  have hbytes := (decode_bytes w []).symm.trans h
  cases hsel : decodeSel w with
  | ok j => rw [hsel] at hbytes; cases hbytes; rfl
  | error e => rw [hsel] at hbytes; cases hbytes

/-- The capture selector names the unit's capture operation (R63, R64). -/
theorem decodeSel_selDes (s : State) : decodeSel (selDes s) = .ok (captureOp s.now.latchEn (s.now.des.dcnt == 13)) :=
  decodeSel_of_decode (decode_selDes s)

/-- The capture operation clears exactly while `latch_en` is 0 (R89). -/
theorem captureOp_eq_desClr_iff (latch full : Bool) : captureOp latch full = .desClr ↔ latch = false := by
  cases latch <;> cases full <;> decide

/-- `latch_en` is 0 exactly outside ReadLine (R88). -/
theorem latchEn_eq_false_iff {r : Regs} : r.latchEn = false ↔ r.frame.state ≠ Fc.readLine := by
  rw [Regs.latchEn, beq_eq_false_iff_ne]

/-- Settles O17: DES.CLR by its rule and its selector words, its cycles by what `latch_en` is. -/
theorem clearDiscardsTheAccumulation : Obligations.ClearDiscardsTheAccumulation := by
  refine ⟨fun s => rfl, rfl, rfl, fun s => ?_⟩
  rw [decodeSel_selDes, Except.ok.injEq, captureOp_eq_desClr_iff, latchEn_eq_false_iff]

/-! ### Emission with space -/

/-- `bw_rdy` is never 1 without space in the bridging queue (R48). -/
theorem length_bridgeQ_of_bwRdy (h : s.bwRdy = true) : s.now.bridgeQ.length < s.cfg.bridgeDepth := by
  obtain ⟨-, hspace⟩ := Bool.and_eq_true_iff.mp h
  exact of_decide_eq_true hspace

/-- Settles O23: both operations push legally, since there is space. -/
theorem emitLowBytes : Obligations.EmitLowBytes :=
  ⟨fun _ hspace => pushBridge_nxt hspace (lowByte _) fun d => { d with emitSt := .evenHigh },
    fun _ hspace => pushBridge_nxt hspace (lowByte _) fun d => { d with emitSt := .oddHigh },
    rfl, rfl, fun _ => length_bridgeQ_of_bwRdy⟩

/-! ### The stall -/

/-- Without `bw_rdy` no byte is emitted (R94). -/
theorem emitted_of_not_bwRdy (h : s.bwRdy = false) : Rtl.emitted s = none := by
  simp [Rtl.emitted, h]

/-- Without `bw_rdy` EMIT.ODD_HI is not performed (R98), so no pair is spent. -/
theorem emitsOddHigh_of_not_bwRdy (h : s.bwRdy = false) : s.emitsOddHigh = false := by
  simp [State.emitsOddHigh, h]

/-- A pair waiting without `bw_rdy` stays pending at the byte it has reached, also under a capture (R94). -/
theorem deserializer_of_stall (hd : s.now.des.haveData = true) (hb : s.bwRdy = false) :
    (Rtl.deserializer s).haveData = true ∧ (Rtl.deserializer s).emitSt = s.now.des.emitSt := by
  refine ⟨?_, ?_⟩
  · simp [Rtl.deserializer, hd, emitsOddHigh_of_not_bwRdy hb]
  · simp [deserializer_emitSt, hb]

/-- A capture while the pair waits is an overrun (R92, R94). -/
theorem overruns_of_stall (hd : s.now.des.haveData = true) (hb : s.bwRdy = false) : s.overruns = true := by
  rw [State.overruns, hd, emitsOddHigh_of_not_bwRdy hb]; rfl

/-- Settles O24: EMIT.STALL by its rule and its selector words, the cycle by what each register's next value is. -/
theorem stalledEmitterWaits : Obligations.StalledEmitterWaits := by
  refine ⟨fun s => rfl, by decide, fun s t h hd hb => ?_⟩
  obtain ⟨hn, -, -⟩ := h.regs
  obtain ⟨hpending, hemit⟩ := deserializer_of_stall hd hb
  rw [hn]
  refine ⟨?_, hpending, hemit, fun hcap => ?_, fun hcap => ?_⟩
  · simp [Rtl.regs, Rtl.queue, emitted_of_not_bwRdy hb]
  · simp [Rtl.regs, hcap, overruns_of_stall hd hb]
  · obtain ⟨hE, hO, -⟩ := deserializer_pair_of_not_captures hcap
    exact ⟨hE, hO, by simp [Rtl.regs, hcap]⟩

end Sys2Proof.Machine
end

section
/-! PROOF. The FrameController and the bias injection: Powerup waits for `ready` and is left for good (R104), the
strobe of a command word is one cycle (R107), and an inactive burst is clear (R113). -/

namespace Sys2Proof.Machine

variable {s t : State}

/-! ### The control registers after a step -/

/-- A step resets the registers of the FrameController and the bias injection, or leaves them, or gives them their
next values; out of reset it is only the system reset that resets them. -/
theorem frame_inj_of_step (h : step s = .next t) :
    ((s.draw.turn = .reset ∨ ¬ s.Running) ∧ t.now.frame = Frame.reset ∧ t.now.inj = Injector.reset) ∨
    (t.now.frame = s.now.frame ∧ t.now.inj = s.now.inj) ∨
    (t.now.frame = Rtl.frame s ∧ t.now.inj = Rtl.injector s) := by
  obtain ⟨-, -, -, -, -, hx⟩ := step_inv h
  rcases hx with ⟨hreset, hn⟩ | ⟨-, -, hn⟩ | ⟨-, -, hheld, hn⟩ | ⟨-, hn⟩
  · exact .inl ⟨.inl hreset, by rw [hn]; exact ⟨rfl, rfl⟩⟩
  · obtain ⟨hcontrol, -⟩ := host_effect_control s
    exact .inr (.inl (hn ▸ ⟨hcontrol.frame, hcontrol.inj⟩))
  · have hrun : ¬ s.Running := fun hr => by simp [sensorRst_of_running hr] at hheld
    exact .inl ⟨.inr hrun, by rw [hn]; exact ⟨rfl, rfl⟩⟩
  · cases hf : Rtl.fault s with
    | none => exact .inr (.inr (by rw [hn, next_of_none hf]; exact ⟨rfl, rfl⟩))
    | some f => exact .inr (.inl (by rw [hn, next_of_some hf]; exact ⟨rfl, rfl⟩))

/-- A fault-free sensor cycle gives the FrameController's registers their next values. -/
theorem SensorStep.frame_eq (h : SensorStep s t) : t.now.frame = Rtl.frame s := by
  obtain ⟨hn, -, -⟩ := h.regs
  rw [hn, Rtl.regs]

/-- A fault-free sensor cycle gives the registers of the bias injection their next values. -/
theorem SensorStep.inj_eq (h : SensorStep s t) : t.now.inj = Rtl.injector s := by
  obtain ⟨hn, -, -⟩ := h.regs
  rw [hn, Rtl.regs]

/-! ### Powerup -/

/-- The FrameController sees `ready` exactly in BoostEnabled (R72). -/
theorem ready_iff {r : Regs} : r.ready = true ↔ r.power.state = .boostEnabled := by
  rw [Regs.ready, beq_iff_eq]

/-- Powerup counts no line. -/
theorem counts_of_powerup (hs : s.now.frame.state = Fc.powerup) : Rtl.counts s = false := by
  simp [Rtl.counts, Rtl.lineLength, hs]

/-- Powerup leaves for Init with `ready` and changes nothing without it (R104). -/
theorem frame_of_powerup (hs : s.now.frame.state = Fc.powerup) :
    Rtl.frame s = if s.now.ready then { s.now.frame with state := Fc.init, initCnt := 0 } else s.now.frame := by
  have hends : Rtl.lineEnds s = false := by rw [Rtl.lineEnds, counts_of_powerup hs]; rfl
  have hlast : Rtl.frameEnds s = false := by rw [Rtl.frameEnds, hends]; rfl
  cases hr : s.now.ready with
  | true => simp [Rtl.frame, Rtl.fcState, hs, hr, hends, hlast, counts_of_powerup hs]
  | false =>
    calc Rtl.frame s = { s.now.frame with state := Fc.powerup } := by
          simp [Rtl.frame, Rtl.fcState, hs, hr, hends, hlast, counts_of_powerup hs]
      _ = s.now.frame := by rw [← hs]

/-- No other state is followed by Powerup (R104 to R112). -/
theorem fcState_ne_powerup (hs : s.now.frame.state ≠ Fc.powerup) : Rtl.fcState s ≠ Fc.powerup := by
  have hs' : s.now.frame.state ≠ 0#4 := hs
  simp only [Rtl.fcState, if_neg hs]
  split_ifs <;> simp [hs']

/-- The cycles spent since reset reach P exactly in BoostEnabled (R78). -/
theorem elapsed_eq_readyCycle_iff {cfg : Params} {p : Power} (h : p.Ok cfg) :
    p.elapsed cfg = cfg.readyCycle ↔ p.state = .boostEnabled := by
  obtain ⟨st, cnt⟩ := p
  cases st with
  | boostEnabled => simp [Power.elapsed]
  | init | rail3v3 | rail2v5 =>
    simp only [Power.Ok] at h
    simp only [Power.elapsed, Params.readyCycle, reduceCtorEq, iff_false]
    omega

/-- In Powerup the power sequence has just finished exactly in cycle P (R78, R104). -/
theorem boostEnabled_iff_readyCycle (hI : s.Inv) (hT : s.now.OnTime s.cfg) (hs : s.now.frame.state = Fc.powerup) :
    s.now.power.state = .boostEnabled ↔ s.now.cycle = s.cfg.readyCycle := by
  have hle : s.now.cycle ≤ s.cfg.readyCycle := hT.powerup.1 hs
  rw [← elapsed_eq_readyCycle_iff hI.regs.power, hT.power, Nat.min_eq_right hle]

/-- Settles O29: FC.POWERUP by its rule and its selector word, the cycle by the FrameController's next value, cycle P
by the power sequence being on time. -/
theorem powerupWaitsForReady : Obligations.PowerupWaitsForReady := by
  refine ⟨fun s hr => ?_, fun s hr => ?_, rfl, fun r hs => ?_, fun s t h hs => ?_, fun s t hI hT h hs => ?_,
    fun s t h ht hr hs => ?_⟩
  · simp only [exec, execFcPowerup, hr, if_true]; rfl
  · simp [exec, execFcPowerup, hr]
  · rw [latchEn_eq_false_iff, hs]; decide
  · rw [h.frame_eq, frame_of_powerup hs]
    exact ⟨fun hb => by simp [ready_iff.2 hb], fun hb => if_neg (mt ready_iff.1 hb)⟩
  · rw [h.frame_eq, frame_of_powerup hs, ← boostEnabled_iff_readyCycle hI hT hs, ← ready_iff]
    cases s.now.ready <;> simp [hs]
  · rcases frame_inj_of_step h with ⟨hreset, -⟩ | ⟨hf, -⟩ | ⟨hf, -⟩
    · exact absurd hreset (not_or.2 ⟨ht, not_not.2 hr⟩)
    · rwa [hf]
    · rw [hf]; exact fcState_ne_powerup hs

/-! ### The strobe of a command word -/

/-- A cycle without a push only removes words from the head of a queue (R33). -/
theorem queue_none_removes {α : Type} (q : List α) (pop : Bool) : ∃ popped, q = popped ++ Rtl.queue q pop none :=
  ⟨_, by rw [take_append_queue, Option.toList_none, List.append_nil]⟩

/-- SendCmd is followed by its strobe (R106). -/
theorem fcState_of_sendCmd (hs : s.now.frame.state = Fc.sendCmd) : Rtl.fcState s = Fc.sendCmdStrobe := by
  simp [Rtl.fcState, hs]

/-- The strobe is followed by SendCmdAdvance (R107). -/
theorem fcState_of_sendCmdStrobe (hs : s.now.frame.state = Fc.sendCmdStrobe) :
    Rtl.fcState s = Fc.sendCmdAdvance := by
  simp [Rtl.fcState, hs]

/-- Settles O32: FC.SENDCMD_STROBE by its rule and its selector word, the cycles around it by the next `fc_state`;
only SendCmd pushes. -/
theorem strobeIsOneCycle : Obligations.StrobeIsOneCycle := by
  refine ⟨fun s => rfl, rfl, fun s t h hs => ?_, fun s t h hs => ?_⟩
  · rw [h.frame_eq]; exact fcState_of_sendCmd hs
  · obtain ⟨hn, -, -⟩ := h.regs
    rw [hn]
    refine ⟨fcState_of_sendCmdStrobe hs, ?_⟩
    simp only [Rtl.regs, cmdPush_of_ne (s := s) (by rw [hs]; decide)]
    exact queue_none_removes _ _

/-! ### An inactive burst -/

/-- Without a burst and without the trigger the bias registers stay (R113). -/
theorem injector_of_idle (ha : s.now.inj.active = false) (hb : s.biasTrigger = false) :
    Rtl.injector s = s.now.inj := by
  simp [Rtl.injector, ha, hb]

/-- The bias registers are clear while no burst is active (R113). -/
def Injector.ClearWhenIdle (j : Injector) : Prop := j.active = false → j.phase = false ∧ j.cnt = 0

/-- The invariant of the bias registers says so. -/
theorem Injector.Ok.clearWhenIdle {cfg : Params} {j : Injector} (h : j.Ok cfg) : j.ClearWhenIdle := by
  intro ha
  simpa [Injector.Ok, ha] using h

/-- The reset values are clear. -/
theorem Injector.reset_clearWhenIdle : Injector.reset.ClearWhenIdle := fun _ => ⟨rfl, rfl⟩

/-- A burst ends with its registers clear, and starts only by becoming active (R113 to R116). -/
theorem injector_clearWhenIdle (h : s.now.inj.ClearWhenIdle) : (Rtl.injector s).ClearWhenIdle := by
  unfold Rtl.injector
  split
  · split
    · split
      · exact Injector.reset_clearWhenIdle
      · exact nofun
    · exact nofun
  · split
    · exact nofun
    · exact h

/-- Settles O35: BIAS.IDLE by its rule and its selector words; every step keeps the registers of an inactive burst
clear. -/
theorem biasIdleChangesNothing : Obligations.BiasIdleChangesNothing := by
  refine ⟨fun s => rfl, rfl, rfl, fun s t h ha hb => ?_, fun s t hI h => ?_⟩
  · rw [h.inj_eq, injector_of_idle ha hb]
  · have hclear := hI.regs.inj.clearWhenIdle
    rcases frame_inj_of_step h with ⟨-, -, hj⟩ | ⟨-, hj⟩ | ⟨-, hj⟩ <;> rw [hj]
    · exact Injector.reset_clearWhenIdle
    · exact hclear
    · exact injector_clearWhenIdle hclear

end Sys2Proof.Machine
end

section
/-! PROOF. The DomainBridge: the host agent idles (R122) or transfers the oldest byte (R123). -/

namespace Sys2Proof.Machine

variable {s : State}

/-! ### The host selector -/

/-- The host selector names the host agent's operation (R63, R64). -/
theorem decodeSel_selHost (s : State) : decodeSel (selHost s) = .ok (hostOp s.sensorRst s.hostTakes) :=
  decodeSel_of_decode (decode_selHost (s := s))

/-- Out of reset the host agent's operation is a transfer exactly when it takes a byte, and idle otherwise (R64). -/
theorem hostOp_running_iff (takes : Bool) :
    (hostOp false takes = .hostIdle ↔ takes = false) ∧ (hostOp false takes = .hostXfer ↔ takes = true) := by
  cases takes <;> decide

/-- Out of reset HOST.IDLE is selected exactly when the host takes no byte (R122). -/
theorem decodeSel_selHost_eq_hostIdle_iff (hr : s.sensorRst = false) :
    decodeSel (selHost s) = .ok .hostIdle ↔ s.hostTakes = false := by
  rw [decodeSel_selHost, Except.ok.injEq, hr]
  exact (hostOp_running_iff s.hostTakes).1

/-- Out of reset HOST.XFER is selected exactly when the host takes a byte (R123). -/
theorem decodeSel_selHost_eq_hostXfer_iff (hr : s.sensorRst = false) :
    decodeSel (selHost s) = .ok .hostXfer ↔ s.hostTakes = true := by
  rw [decodeSel_selHost, Except.ok.injEq, hr]
  exact (hostOp_running_iff s.hostTakes).2

/-- The host sees no byte in an empty queue (R48). -/
theorem brRdy_of_bridgeQ_nil (h : s.now.bridgeQ = []) : s.brRdy = false := by
  rw [State.brRdy, h]; exact Bool.and_false _

/-- Settles O45: HOST.IDLE by its rule and its selector word, its cycles by what the host takes. -/
theorem hostIdleChangesNothing : Obligations.HostIdleChangesNothing := by
  refine ⟨fun s => rfl, rfl, fun s hr => ?_, fun s => brRdy_of_bridgeQ_nil⟩
  rw [decodeSel_selHost_eq_hostIdle_iff hr, State.hostTakes, Bool.and_eq_false_iff]

/-! ### The transfer -/

/-- HOST.XFER moves the head of the bridging queue to the end of the host stream (R123). -/
theorem exec_hostXfer_of_cons {b : Byte} {q : List Byte} (hq : s.now.bridgeQ = b :: q) :
    exec .hostXfer s = .next { s with nxt := { s.nxt with
      bridgeQ := s.nxt.bridgeQ.tail, hostStream := s.nxt.hostStream ++ [b] } } := by
  have hlegal : s.Legal .hostXfer := by rw [State.Legal, hq]; exact List.cons_ne_nil b q
  rw [exec_of_legal _ _ hlegal, State.sched, effectOf_hostXfer _ hq]
  rfl

/-- A host cycle appends to the host stream nothing or one byte (R121 to R123). -/
theorem host_effect_hostStream (s : State) :
    let stream := (effectOf (hostOp s.sensorRst s.hostTakes) s s.now).hostStream
    stream = s.now.hostStream ∨ ∃ b, stream = s.now.hostStream ++ [b] := by
  simp only [host_effect]
  split
  · exact .inl rfl
  · split
    · cases hq : s.now.bridgeQ with
      | nil => exact .inl (List.append_nil _)
      | cons b q => exact .inr ⟨b, rfl⟩
    · exact .inl rfl

/-- Settles O46: HOST.XFER by its rule and its selector word, its cycles by what the host takes, the stream by what
a host cycle appends. -/
theorem hostTransfersTheOldest : Obligations.HostTransfersTheOldest := by
  refine ⟨fun s b q => exec_hostXfer_of_cons, rfl, fun s hr => ?_, fun s hb hq => ?_, fun s t h ht => ?_⟩
  · rw [decodeSel_selHost_eq_hostXfer_iff hr, State.hostTakes, Bool.and_eq_true_iff]
  · cases (brRdy_of_bridgeQ_nil hq).symm.trans hb
  · rw [now_of_hostStep h ht]
    exact host_effect_hostStream s

end Sys2Proof.Machine
end

section
/-! PROOF. What the exceptions leave standing: the rails stay on until a system reset (R144), and the bits a fall of
`latch_en` discards are shown by nothing (R128). -/

namespace Sys2Proof.Machine

variable {s t : State}

/-! ### The agents always step -/

/-- An agent whose turn it is steps, in or out of reset, and so does the system reset. -/
theorem exists_step_next (hv : s.cfg.Valid) (hf : s.now.fault = none) : ∃ t, step s = .next t := by
  cases ht : s.draw.turn with
  | reset => exact ⟨_, step_reset hv ht⟩
  | host => exact ⟨_, step_host hv hf ht⟩
  | sensor =>
    cases hr : s.sensorRst with
    | true => exact ⟨_, step_held hv hf ht hr⟩
    | false => exact ⟨_, step_rtl ⟨hv, hf, ht, by simpa [State.sensorRst] using hr⟩⟩

/-! ### The rails -/

/-- The rails come on out of reset, one after the other in the order of the power states (R72). -/
theorem rails_iff (s : State) :
    (s.pins.en3v3 = true ↔ s.Running ∧ 1 ≤ s.now.power.state.code.toNat) ∧
    (s.pins.en2v5 = true ↔ s.Running ∧ 2 ≤ s.now.power.state.code.toNat) ∧
    (s.pins.enBoost = true ↔ s.Running ∧ 3 ≤ s.now.power.state.code.toNat) := by
  by_cases hr : s.Running
  · rw [pins_of_running hr]
    cases hp : s.now.power.state <;> simp [Pins.running, PowerState.code, hp, hr]
  · have hheld : s.sensorRst = true := by simpa [State.sensorRst] using hr
    simp [State.pins, Pins.held, hheld, hr]

/-- The PowerSequencer never goes back to an earlier state (R71). -/
theorem code_le_code_rtl_power (cfg : Params) (p : Power) :
    p.state.code.toNat ≤ (Rtl.power cfg p).state.code.toNat := by
  obtain ⟨st, cnt⟩ := p
  cases st with
  | init | rail3v3 | rail2v5 => simp only [Rtl.power]; split <;> simp [PowerState.code]
  | boostEnabled => exact le_rfl

/-- Out of reset no agent's step leads to an earlier power state. -/
theorem code_le_of_step (h : step s = .next t) (ht : s.draw.turn ≠ .reset) (hr : s.Running) :
    s.now.power.state.code.toNat ≤ t.now.power.state.code.toNat := by
  rcases power_of_step h ht hr with hp | hp
  · rw [hp]
  · rw [hp]; exact code_le_code_rtl_power s.cfg s.now.power

/-- No agent's step turns a rail off. -/
theorem rails_kept_of_step (h : step s = .next t) (ht : s.draw.turn ≠ .reset) :
    (s.pins.en3v3 = true → t.pins.en3v3 = true) ∧ (s.pins.en2v5 = true → t.pins.en2v5 = true) ∧
      (s.pins.enBoost = true → t.pins.enBoost = true) := by
  have kept {n : Nat} (hs : s.Running ∧ n ≤ s.now.power.state.code.toNat) :
      t.Running ∧ n ≤ t.now.power.state.code.toNat :=
    ⟨running_of_step h ht hs.1, hs.2.trans (code_le_of_step h ht hs.1)⟩
  obtain ⟨s3v3, s2v5, sBoost⟩ := rails_iff s
  obtain ⟨t3v3, t2v5, tBoost⟩ := rails_iff t
  rw [s3v3, s2v5, sBoost, t3v3, t2v5, tBoost]
  exact ⟨kept, kept, kept⟩

/-- The system reset gives the power registers their reset values (R145). -/
theorem power_of_resetStep (h : step s = .next t) (ht : s.draw.turn = .reset) : t.now.power = Power.reset := by
  obtain ⟨hv, -⟩ := step_inv h
  rw [step_reset hv ht, State.commit_of_none _ rfl] at h
  cases h
  rfl

/-- At the reset value of the power registers all rails are off (R72). -/
theorem rails_off_of_power_reset (hp : s.now.power = Power.reset) :
    s.pins.en3v3 = false ∧ s.pins.en2v5 = false ∧ s.pins.enBoost = false := by
  obtain ⟨h3v3, h2v5, hBoost⟩ := rails_iff s
  simp [← Bool.not_eq_true, h3v3, h2v5, hBoost, hp, Power.reset, PowerState.code]

/-! ### The restart after InterFrame -/

/-- Out of Powerup in a running sensor domain the PowerSequencer is in BoostEnabled (R104). -/
theorem State.Inv.boosted (hI : s.Inv) (hr : s.Running) (hs : s.now.frame.state ≠ Fc.powerup) : s.Boosted := by
  have hst : s.now.power.state = .boostEnabled := hI.regs.powered hs
  have hcnt : s.now.power.cnt = 0 := by simpa [Power.Ok, hst] using hI.regs.power
  exact ⟨hr, by rw [← hst, ← hcnt]⟩

/-- InterFrame is followed by itself or by Init (R112). -/
theorem fcState_of_interFrame (hs : s.now.frame.state = Fc.interFrame) :
    Rtl.fcState s = Fc.interFrame ∨ Rtl.fcState s = Fc.init := by
  simp only [Rtl.fcState, hs]
  cases Rtl.lineEnds s <;> simp

/-- Settles O12: the rails are on from a power state on, which only the system reset leaves for an earlier one. -/
theorem railsStayOn : Obligations.RailsStayOn := by
  refine ⟨fun s => exists_step_next, fun s t _ => rails_kept_of_step, fun s t hI h hs => ?_,
    fun s t h ht => rails_off_of_power_reset (power_of_resetStep h ht)⟩
  have hb : s.Boosted := hI.boosted h.cycle.running (by rw [hs]; decide)
  have hb' : t.Boosted := hb.of_step (by rw [h.cycle.turn]; decide) h.next
  obtain ⟨-, -, -, hBoost⟩ := hb'.outputs
  refine ⟨hb'.power.trans hb.power.symm, hBoost, fun hne => ?_⟩
  rw [h.frame_eq] at hne ⊢
  exact (fcState_of_interFrame hs).resolve_left hne

/-! ### A fall of `latch_en` -/

/-- Without `latch_en` nothing is captured (R91). -/
theorem captures_of_not_latchEn (h : s.now.latchEn = false) : s.now.captures = false := by
  rw [Regs.captures, h, Bool.false_and]

/-- Without `latch_en` the accumulation is empty after the cycle (R89). -/
theorem deserializer_acc_of_not_latchEn (h : s.now.latchEn = false) :
    (Rtl.deserializer s).accE = 0 ∧ (Rtl.deserializer s).accO = 0 ∧ (Rtl.deserializer s).dcnt = 0 := by
  simp [Rtl.deserializer, Rtl.acc, h]

/-- Without a pair to emit no byte is emitted (R93). -/
theorem emitted_of_not_haveData (h : s.now.des.haveData = false) : Rtl.emitted s = none := by
  simp [Rtl.emitted, h]

/-- A line of an odd number of columns ends in the middle of a capture period (R128). -/
theorem Params.lineCycles_mod (p : Params) : p.lineCycles % 14 = if p.cols % 2 = 1 then 7 else 0 := by
  rw [Params.lineCycles]
  split <;> omega

/-- Settles O21: the cycle by what each register's next value is, the bits left over by the alignment of the capture
periods with the line. -/
theorem misalignedCaptureIsSilent : Obligations.MisalignedCaptureIsSilent := by
  refine ⟨fun s t hI h hl => ?_, fun s hA hs h0 => ?_, Params.lineCycles_mod⟩
  · obtain ⟨hn, -, -⟩ := h.regs
    obtain ⟨hdcnt, -⟩ := hI.regs.des
    have hcap := captures_of_not_latchEn hl
    obtain ⟨haccE, haccO, hcnt⟩ := deserializer_acc_of_not_latchEn hl
    obtain ⟨houtE, houtO, -⟩ := deserializer_pair_of_not_captures hcap
    rw [hn]
    refine ⟨hdcnt, haccE, haccO, hcnt, houtE, houtO, ?_, fun hd => ?_⟩
    · simp [Rtl.regs, hcap]
    · simp [Rtl.regs, Rtl.queue, emitted_of_not_haveData hd]
  · refine ⟨latchEn_eq_false_iff.2 ?_, hA.after hs h0⟩
    rcases hs with hs | hs <;> rw [hs] <;> decide

end Sys2Proof.Machine
end

section
/-! PROOF. The FrameController's moves: what a sensor cycle makes of the frame registers in every state the invariant
admits (R104 to R112), and what a step can make of the registers at all. -/

namespace Sys2Proof.Machine

variable {s t : State}

/-- A move of the FrameController in a sensor cycle, by the values of its registers before and after it. -/
inductive FrameMove (s : State) : Prop where
  | powerupWait (hr : s.now.ready = false) (h : s.now.frame = ⟨Fc.powerup, 0, 0, 0, 0⟩)
      (h' : Rtl.frame s = ⟨Fc.powerup, 0, 0, 0, 0⟩)
  | powerupEnd (hr : s.now.ready = true) (h : s.now.frame = ⟨Fc.powerup, 0, 0, 0, 0⟩)
      (h' : Rtl.frame s = ⟨Fc.init, 0, 0, 0, 0⟩)
  | initCount (i : Nat) (hi : i + 1 < s.cfg.initCycles) (h : s.now.frame = ⟨Fc.init, i, 0, 0, 0⟩)
      (h' : Rtl.frame s = ⟨Fc.init, i + 1, 0, 0, 0⟩)
  | initEnd (i : Nat) (hi : i + 1 = s.cfg.initCycles) (h : s.now.frame = ⟨Fc.init, i, 0, 0, 0⟩)
      (h' : Rtl.frame s = ⟨Fc.sendCmd, 0, 0, 0, 0⟩)
  | send (k : Fin 12) (h : s.now.frame = ⟨Fc.sendCmd, 0, k, 0, 0⟩)
      (h' : Rtl.frame s = ⟨Fc.sendCmdStrobe, 0, k, 0, 0⟩)
  | strobe (k : Fin 12) (h : s.now.frame = ⟨Fc.sendCmdStrobe, 0, k, 0, 0⟩)
      (h' : Rtl.frame s = ⟨Fc.sendCmdAdvance, 0, k, 0, 0⟩)
  | nextWord (k j : Fin 12) (hk : j.val = k.val + 1) (h : s.now.frame = ⟨Fc.sendCmdAdvance, 0, k, 0, 0⟩)
      (h' : Rtl.frame s = ⟨Fc.sendCmd, 0, j, 0, 0⟩)
  | lastWord (h : s.now.frame = ⟨Fc.sendCmdAdvance, 0, 11, 0, 0⟩)
      (h' : Rtl.frame s = ⟨Fc.waitFrameStart, 0, 11, 0, 0⟩)
  | startHold (l : Nat) (hl : l < s.cfg.cmdToLineStart) (hd : s.now.cmdDone = false)
      (h : s.now.frame = ⟨Fc.waitFrameStart, 0, 11, l, 0⟩) (h' : Rtl.frame s = ⟨Fc.waitFrameStart, 0, 11, l, 0⟩)
  | startCount (l : Nat) (hl : l + 1 < s.cfg.cmdToLineStart) (hd : s.now.cmdDone = true)
      (h : s.now.frame = ⟨Fc.waitFrameStart, 0, 11, l, 0⟩)
      (h' : Rtl.frame s = ⟨Fc.waitFrameStart, 0, 11, l + 1, 0⟩)
  | startEnd (l : Nat) (hl : l + 1 = s.cfg.cmdToLineStart) (hd : s.now.cmdDone = true)
      (h : s.now.frame = ⟨Fc.waitFrameStart, 0, 11, l, 0⟩) (h' : Rtl.frame s = ⟨Fc.readLine, 0, 11, 0, 0⟩)
  | lineCount (l k : Nat) (hl : l + 1 < s.cfg.lineCycles) (hk : k < s.cfg.rows)
      (h : s.now.frame = ⟨Fc.readLine, 0, 11, l, k⟩) (h' : Rtl.frame s = ⟨Fc.readLine, 0, 11, l + 1, k⟩)
  | lineEnd (l k : Nat) (hl : l + 1 = s.cfg.lineCycles) (hk : k + 1 < s.cfg.rows)
      (h : s.now.frame = ⟨Fc.readLine, 0, 11, l, k⟩) (h' : Rtl.frame s = ⟨Fc.waitLine, 0, 11, 0, k + 1⟩)
  | lastLineEnd (l k : Nat) (hl : l + 1 = s.cfg.lineCycles) (hk : k + 1 = s.cfg.rows)
      (h : s.now.frame = ⟨Fc.readLine, 0, 11, l, k⟩) (h' : Rtl.frame s = ⟨Fc.interFrame, 0, 0, 0, 0⟩)
  | gapCount (l k : Nat) (hl : l + 1 < s.cfg.lineStartOffset) (hk : k + 1 < s.cfg.rows)
      (h : s.now.frame = ⟨Fc.waitLine, 0, 11, l, k + 1⟩) (h' : Rtl.frame s = ⟨Fc.waitLine, 0, 11, l + 1, k + 1⟩)
  | gapEnd (l k : Nat) (hl : l + 1 = s.cfg.lineStartOffset) (hk : k + 1 < s.cfg.rows)
      (h : s.now.frame = ⟨Fc.waitLine, 0, 11, l, k + 1⟩) (h' : Rtl.frame s = ⟨Fc.readLine, 0, 11, 0, k + 1⟩)
  | betweenCount (l : Nat) (hl : l + 1 < s.cfg.interFrameCycles)
      (h : s.now.frame = ⟨Fc.interFrame, 0, 0, l, 0⟩) (h' : Rtl.frame s = ⟨Fc.interFrame, 0, 0, l + 1, 0⟩)
  | betweenEnd (l : Nat) (hl : l + 1 = s.cfg.interFrameCycles)
      (h : s.now.frame = ⟨Fc.interFrame, 0, 0, l, 0⟩) (h' : Rtl.frame s = ⟨Fc.init, 0, 0, 0, 0⟩)

/-- Registers with these fields. -/
theorem Frame.eq_mk {f : Frame} {st : BitVec 4} {i l k : Nat} {c : Fin 12} (hst : f.state = st) (hi : f.initCnt = i)
    (hc : f.cmdIdx = c) (hl : f.lineCnt = l) (hk : f.rowCnt = k) : f = ⟨st, i, c, l, k⟩ := by
  subst hst hi hc hl hk; rfl

/-- A state that does not count `line_cnt` has no last cycle of a line. -/
theorem lineEnds_of_lineLength (h : Rtl.lineLength s.cfg s.now.frame.state = none) :
    Rtl.counts s = false ∧ Rtl.lineEnds s = false ∧ Rtl.frameEnds s = false := by
  simp [Rtl.counts, Rtl.lineEnds, Rtl.frameEnds, h]

/-- In the last cycle of a counted state it does. -/
theorem lineEnds_of_last {n : Nat} (h : Rtl.lineLength s.cfg s.now.frame.state = some n)
    (hw : s.now.frame.state = Fc.waitFrameStart → s.now.cmdDone = true) (hn : s.now.frame.lineCnt + 1 = n) :
    Rtl.lineEnds s = true := by
  simp [Rtl.lineEnds, counts_of_lineLength h hw, h, hn]

/-- Powerup waits for `ready` (R104). -/
theorem frameMove_powerup (h : s.now.frame = ⟨Fc.powerup, 0, 0, 0, 0⟩) : FrameMove s := by
  have hf := frame_of_powerup (s := s) (by rw [h])
  cases hr : s.now.ready with
  | true => exact .powerupEnd hr h (by rw [hf, hr, h]; rfl)
  | false => exact .powerupWait hr h (by rw [hf, hr, h]; rfl)

/-- Init counts INIT_CYCLES (R105). -/
theorem frameMove_init {i : Nat} (hi : i < s.cfg.initCycles) (h : s.now.frame = ⟨Fc.init, i, 0, 0, 0⟩) :
    FrameMove s := by
  obtain ⟨hc, hl, he⟩ := lineEnds_of_lineLength (s := s) (by simp [h, Rtl.lineLength])
  by_cases hlast : i + 1 = s.cfg.initCycles
  · exact .initEnd i hlast h (by simp [Rtl.frame, Rtl.fcState, hc, hl, he, h, hlast])
  · exact .initCount i (by omega) h (by simp [Rtl.frame, Rtl.fcState, hc, hl, he, h, hlast])

/-- The three states of a command word follow each other, twelve times (R106 to R108). -/
theorem frameMove_sending {k : Fin 12} {st : BitVec 4}
    (hst : st = Fc.sendCmd ∨ st = Fc.sendCmdStrobe ∨ st = Fc.sendCmdAdvance) (h : s.now.frame = ⟨st, 0, k, 0, 0⟩) : FrameMove s := by
  obtain ⟨hc, hl, he⟩ := lineEnds_of_lineLength (s := s)
    (by rcases hst with rfl | rfl | rfl <;> simp [h, Rtl.lineLength])
  rcases hst with rfl | rfl | rfl
  · exact .send k h (by simp [Rtl.frame, Rtl.fcState, hc, hl, he, h])
  · exact .strobe k h (by simp [Rtl.frame, Rtl.fcState, hc, hl, he, h])
  · by_cases hlast : k = 11
    · subst hlast
      exact .lastWord h (by simp [Rtl.frame, Rtl.fcState, hl, he, h])
    · have hval : (k + 1).val = k.val + 1 := Fin.val_add_one_of_lt (Fin.lt_last_iff_ne_last.2 hlast)
      exact .nextWord k (k + 1) hval h (by simp [Rtl.frame, Rtl.fcState, hc, hl, he, h, hlast])

/-- The wait for the first line holds until `cmd_done`, then counts (R109). -/
theorem frameMove_waitFrameStart {l : Nat} (hl : l < s.cfg.cmdToLineStart)
    (h : s.now.frame = ⟨Fc.waitFrameStart, 0, 11, l, 0⟩) : FrameMove s := by
  have hlen : Rtl.lineLength s.cfg s.now.frame.state = some s.cfg.cmdToLineStart := by simp [h, Rtl.lineLength]
  cases hd : s.now.cmdDone with
  | false =>
    have hc : Rtl.counts s = false := by simp [Rtl.counts, h, hd]
    exact .startHold l hl hd h (by simp [Rtl.frame, Rtl.fcState, Rtl.frameEnds, Rtl.lineEnds, hc, h])
  | true =>
    by_cases hlast : l + 1 = s.cfg.cmdToLineStart
    · have hends := lineEnds_of_last hlen (fun _ => hd) (by rwa [h])
      exact .startEnd l hlast hd h
        (by simp [Rtl.frame, Rtl.fcState, Rtl.frameEnds, hends, h])
    · exact .startCount l (by omega) hd h (by rw [frame_of_not_last hlen (fun _ => hd) (by rwa [h]), h])

/-- A line is followed by the next one's wait, the last by InterFrame (R110). -/
theorem frameMove_readLine {l k : Nat} (hl : l < s.cfg.lineCycles) (hk : k < s.cfg.rows)
    (h : s.now.frame = ⟨Fc.readLine, 0, 11, l, k⟩) : FrameMove s := by
  have hlen : Rtl.lineLength s.cfg s.now.frame.state = some s.cfg.lineCycles := by simp [h, Rtl.lineLength]
  have hw : s.now.frame.state = Fc.waitFrameStart → s.now.cmdDone = true := by simp [h]
  by_cases hlast : l + 1 = s.cfg.lineCycles
  · have hends := lineEnds_of_last hlen hw (by rwa [h])
    by_cases hrow : k + 1 = s.cfg.rows
    · exact .lastLineEnd l k hlast hrow h
        (by simp [Rtl.frame, Rtl.fcState, Rtl.frameEnds, hends, h, hrow])
    · exact .lineEnd l k hlast (by omega) h
        (by simp [Rtl.frame, Rtl.fcState, Rtl.frameEnds, hends, h, hrow])
  · exact .lineCount l k (by omega) hk h (by rw [frame_of_not_last hlen hw (by rwa [h]), h])

/-- The wait for a further line counts (R111). -/
theorem frameMove_waitLine {l k : Nat} (hl : l < s.cfg.lineStartOffset) (hk : k + 1 < s.cfg.rows)
    (h : s.now.frame = ⟨Fc.waitLine, 0, 11, l, k + 1⟩) : FrameMove s := by
  have hlen : Rtl.lineLength s.cfg s.now.frame.state = some s.cfg.lineStartOffset := by simp [h, Rtl.lineLength]
  have hw : s.now.frame.state = Fc.waitFrameStart → s.now.cmdDone = true := by simp [h]
  by_cases hlast : l + 1 = s.cfg.lineStartOffset
  · have hends := lineEnds_of_last hlen hw (by rwa [h])
    exact .gapEnd l k hlast hk h
      (by simp [Rtl.frame, Rtl.fcState, Rtl.frameEnds, hends, h])
  · exact .gapCount l k (by omega) hk h (by rw [frame_of_not_last hlen hw (by rwa [h]), h])

/-- InterFrame counts and restarts the frame (R112). -/
theorem frameMove_interFrame {l : Nat} (hl : l < s.cfg.interFrameCycles)
    (h : s.now.frame = ⟨Fc.interFrame, 0, 0, l, 0⟩) : FrameMove s := by
  have hlen : Rtl.lineLength s.cfg s.now.frame.state = some s.cfg.interFrameCycles := by simp [h, Rtl.lineLength]
  have hw : s.now.frame.state = Fc.waitFrameStart → s.now.cmdDone = true := by simp [h]
  by_cases hlast : l + 1 = s.cfg.interFrameCycles
  · have hends := lineEnds_of_last hlen hw (by rwa [h])
    exact .betweenEnd l hlast h
      (by simp [Rtl.frame, Rtl.fcState, Rtl.frameEnds, hends, h])
  · exact .betweenCount l (by omega) h (by rw [frame_of_not_last hlen hw (by rwa [h]), h])

/-- Frame registers within their ranges move by one of the rules R104 to R112. -/
theorem frameMove_of_ok (hOk : s.now.frame.Ok s.cfg) : FrameMove s := by
  rcases hOk with ⟨hst, hi, hc, hl, hk⟩ | ⟨hst, hi, hc, hl, hk⟩ | ⟨hst, hi, hl, hk⟩ | ⟨hst, hi, hc, hl, hk⟩ |
    ⟨hst, hi, hc, hl, hk⟩ | ⟨hst, hi, hc, hl, hk, hk'⟩ | ⟨hst, hi, hc, hl, hk⟩
  · exact frameMove_powerup (Frame.eq_mk hst hi hc hl hk)
  · exact frameMove_init hi (Frame.eq_mk hst rfl hc hl hk)
  · exact frameMove_sending hst (Frame.eq_mk rfl hi rfl hl hk)
  · exact frameMove_waitFrameStart hl (Frame.eq_mk hst hi hc rfl hk)
  · exact frameMove_readLine hl hk (Frame.eq_mk hst hi hc rfl rfl)
  · obtain ⟨k, hk''⟩ : ∃ k, s.now.frame.rowCnt = k + 1 := ⟨_, (Nat.sub_add_cancel hk).symm⟩
    exact frameMove_waitLine hl (hk'' ▸ hk') (Frame.eq_mk hst hi hc rfl hk'')
  · exact frameMove_interFrame hl (Frame.eq_mk hst hi hc rfl hk)

end Sys2Proof.Machine
end

section
/-! PROOF. The ranges of all registers and queues are kept by every step (spec/10_state.md). -/

namespace Sys2Proof.Machine

variable {s t : State} {cfg : Params}

/-! ### A sensor cycle without a fault -/

/-- What it says of the cycle that it meets no cause of a fault (R131). -/
theorem causes_of_noFault (h : Rtl.fault s = none) :
    (s.biasTrigger = true → s.now.inj.active = false) ∧
    ((Rtl.cmdPush s).isSome = true → s.now.cmdQ.length < s.cfg.cmdQDepth) ∧
    ((Rtl.biasPush s).isSome = true → s.now.biasQ.length < s.cfg.biasQDepth) := by
  simp only [Rtl.fault, if_neg (Nat.not_le.2 (frameState_of_noFault h))] at h
  split_ifs at h with h1 h2 h3
  simp only [wRdy, Bool.and_eq_true, Bool.not_eq_true', decide_eq_false_iff_not, not_and, not_not,
    Bool.not_eq_true] at h1 h2 h3
  exact ⟨h1, h2, h3⟩

/-! ### The units -/

/-- The PowerSequencer counts below the delay of its state (R70). -/
theorem Power.Ok.rtl {p : Power} (h : p.Ok cfg) : (Rtl.power cfg p).Ok cfg := by
  obtain ⟨st, cnt⟩ := p
  cases st with
  | boostEnabled => exact h
  | init =>
    simp only [Rtl.power]; split
    · exact Params.delay_pos _ _
    · exact not_le.1 ‹_›
  | rail3v3 =>
    simp only [Rtl.power]; split
    · exact Params.delay_pos _ _
    · exact not_le.1 ‹_›
  | rail2v5 =>
    simp only [Rtl.power]; split
    · rfl
    · exact not_le.1 ‹_›

/-- The moves of the FrameController stay within the ranges of its registers. -/
theorem Frame.Ok.rtl (hv : s.cfg.Valid) (h : s.now.frame.Ok s.cfg) : (Rtl.frame s).Ok s.cfg := by
  obtain ⟨hI, hcols, hR, -, hN, hG, -⟩ := Params.bounds_of_valid hv
  have hL := Params.lineCycles_ge hv
  have hLG : s.cfg.interFrameCycles = s.cfg.lineCycles + s.cfg.lineStartOffset := rfl
  cases frameMove_of_ok h with
  | powerupWait _ _ h' | powerupEnd _ _ h' | initCount _ _ _ h' | initEnd _ _ _ h' | send _ _ h' | strobe _ _ h'
  | nextWord _ _ _ _ h' | lastWord _ h' | startHold _ _ _ _ h' | startCount _ _ _ _ h' | startEnd _ _ _ _ h'
  | lineCount _ _ _ _ _ h' | lineEnd _ _ _ _ _ h' | lastLineEnd _ _ _ _ _ h' | gapCount _ _ _ _ _ h'
  | gapEnd _ _ _ _ _ h' | betweenCount _ _ _ h' | betweenEnd _ _ _ h' =>
    simp [Frame.Ok, h'] <;> omega

/-- BoostEnabled is never left by a sensor cycle. -/
theorem rtl_power_boostEnabled {p : Power} (h : p.state = .boostEnabled) :
    (Rtl.power cfg p).state = .boostEnabled := by
  simp [Rtl.power, h]

/-- Powerup is left with the rails on. -/
theorem powered_rtl (hp : s.now.frame.state ≠ Fc.powerup → s.now.power.state = .boostEnabled)
    (h : (Rtl.frame s).state ≠ Fc.powerup) : (Rtl.power s.cfg s.now.power).state = .boostEnabled := by
  refine rtl_power_boostEnabled ?_
  by_cases hs : s.now.frame.state = Fc.powerup
  · by_contra hb
    refine h ?_
    rw [frame_of_powerup hs, if_neg (mt ready_iff.1 hb), hs]
  · exact hp hs

/-- A burst counts below its writes, and ends with its registers clear. -/
theorem Injector.Ok.rtl (hv : s.cfg.Valid) (h : s.now.inj.Ok s.cfg) : (Rtl.injector s).Ok s.cfg := by
  obtain ⟨-, -, -, hn, -⟩ := Params.bounds_of_valid hv
  cases ha : s.now.inj.active with
  | false =>
    cases hb : s.biasTrigger with
    | true => simp only [Injector.Ok, Rtl.injector, ha, hb]; exact hn
    | false => rwa [injector_of_idle ha hb]
  | true =>
    have hcnt : s.now.inj.cnt < s.cfg.biasWrites := by simpa [Injector.Ok, ha] using h
    cases hp : s.now.inj.phase with
    | false => simpa [Injector.Ok, Rtl.injector, ha, hp] using hcnt
    | true =>
      by_cases hlast : s.now.inj.cnt + 1 = s.cfg.biasWrites
      · simp [Injector.Ok, Rtl.injector, ha, hp, hlast]
      · simp only [Injector.Ok, Rtl.injector, ha, hp, hlast, if_true, if_false]; omega

/-- A serializer's bit count and the bits it has left agree (R82 to R84). -/
theorem Serializer.Ok.rtl {w : Nat} {o : BitOrder} {x : Serializer w} (hw : 2 ≤ w) (h : x.Ok o)
    (q : List (BitVec w)) : (Rtl.serializer o x q).Ok o := by
  cases hx : x.haveWord with
  | false =>
    cases q with
    | nil => rwa [serializer_nil hx]
    | cons word q =>
      rw [serializer_cons hx]
      exact ⟨le_rfl, hw, sentBitsZero_shift o word 0 (by omega) (sentBitsZero_zero o word)⟩
  | true =>
    simp only [Serializer.Ok, hx, if_true] at h
    obtain ⟨h1, h2, hsent⟩ := h
    have hshift := sentBitsZero_shift o x.sr x.bitcnt h2 hsent
    simp only [Rtl.serializer, hx, if_true]
    split
    next hlast =>
      rw [hlast] at hshift
      exact ⟨rfl, eq_zero_of_sentBitsZero o _ hshift⟩
    next hne => exact ⟨Nat.le_add_left 1 _, Nat.lt_of_le_of_ne h2 hne, hshift⟩

/-- An accumulator holds the bits counted, and is empty after a capture and outside a line (R89 to R91). -/
theorem rtl_acc_lt {a : Sample} (lane : Bool) (hd : s.now.des.dcnt ≤ 13) (ha : a.toNat < 2 ^ s.now.des.dcnt) :
    (Rtl.acc s a lane).toNat < 2 ^ (Rtl.deserializer s).dcnt := by
  simp only [Rtl.acc, Rtl.deserializer]
  split
  next hacc =>
    simp only [Bool.and_eq_true, bne_iff_ne] at hacc
    exact accumulate_lt a lane _ (by omega) ha
  next => exact Nat.zero_lt_one

/-- The SampleDeserializer keeps its ranges: an emission in progress has a pair to emit (R93, R98). -/
theorem Deserializer.Ok.rtl (h : s.now.des.Ok) : (Rtl.deserializer s).Ok := by
  obtain ⟨hd, hE, hO, hidle⟩ := h
  refine ⟨?_, rtl_acc_lt _ hd hE, rtl_acc_lt _ hd hO, fun hdata => ?_⟩
  · simp only [Rtl.deserializer]
    split
    next hacc =>
      simp only [Bool.and_eq_true, bne_iff_ne] at hacc
      omega
    next => omega
  · rw [deserializer_emitSt]
    obtain ⟨-, hspent⟩ := Bool.or_eq_false_iff.mp hdata
    cases hh : s.now.des.haveData with
    | false => exact hidle hh
    | true =>
      obtain ⟨hb, he⟩ : s.bwRdy = true ∧ s.now.des.emitSt = .oddHigh := by
        simpa [hh, State.emitsOddHigh] using hspent
      rw [hb, he]; rfl

/-! ### All registers -/

/-- The reset values are in range under every configuration, whatever the host stream holds (R146). -/
theorem Regs.Ok.reset (cfg : Params) (h : List Byte) : (Regs.reset.setHostStream h).Ok cfg where
  power := Params.delay_pos _ _
  frame := .inl ⟨rfl, rfl, rfl, rfl, rfl⟩
  powered hs := absurd rfl hs
  inj := ⟨rfl, rfl⟩
  cmdSer := ⟨rfl, rfl⟩
  biasSer := ⟨rfl, rfl⟩
  des := ⟨Nat.zero_le _, Nat.zero_lt_one, Nat.zero_lt_one, fun _ => rfl⟩
  cmdQ := Nat.zero_le _
  biasQ := Nat.zero_le _
  bridgeQ := Nat.zero_le _
  rstCnt := Nat.zero_le _
  hold _ := ⟨⟨rfl, rfl, rfl, rfl, rfl, rfl⟩, rfl, rfl, rfl⟩

/-- No range speaks of the host stream or the recorded fault. -/
theorem Regs.Ok.set {r : Regs} (hOk : r.Ok cfg) (h : List Byte) (f : Option FaultRecord) :
    ({ r with hostStream := h, fault := f } : Regs).Ok cfg where
  power := hOk.power
  frame := hOk.frame
  powered := hOk.powered
  inj := hOk.inj
  cmdSer := hOk.cmdSer
  biasSer := hOk.biasSer
  des := hOk.des
  cmdQ := hOk.cmdQ
  biasQ := hOk.biasQ
  bridgeQ := hOk.bridgeQ
  rstCnt := hOk.rstCnt
  hold := hOk.hold

/-- A host cycle keeps the ranges: it counts `rst_cnt` up to RST_HOLD and no further (R121). -/
theorem Regs.Ok.host (hOk : s.now.Ok s.cfg) :
    (effectOf (hostOp s.sensorRst s.hostTakes) s s.now).Ok s.cfg := by
  rw [host_effect]
  split
  next hr =>
    simp only [State.sensorRst, decide_eq_true_eq] at hr
    obtain ⟨hreset, hcmd, hbias, -⟩ := hOk.hold hr
    exact { hOk with bridgeQ := Nat.zero_le _, rstCnt := hr, hold := fun _ => ⟨hreset, hcmd, hbias, rfl⟩ }
  next hr =>
    split
    next =>
      have htail : s.now.bridgeQ.tail.length ≤ s.cfg.bridgeDepth := by
        have := hOk.bridgeQ
        rw [List.length_tail]; omega
      have hrun : ¬ s.now.rstCnt < s.cfg.rstHold := by simpa [State.sensorRst] using hr
      exact { hOk.set (s.now.hostStream ++ s.now.bridgeQ.take 1) s.now.fault with
        bridgeQ := htail, hold := fun h => absurd h hrun }
    next => exact hOk

/-- During the hold the sensor registers are at their reset values already, whatever is scheduled. -/
theorem heldInReset_of_ok (hOk : s.now.Ok s.cfg) (hr : s.sensorRst = true) : s.now.heldInReset = s.now :=
  heldInReset_of_inv (s := s.startCycle) ⟨rfl, hOk⟩ hr

/-- The next values of a sensor cycle without a fault are in range. -/
theorem Regs.Ok.rtl (hOk : s.now.Ok s.cfg) (hc : s.SensorCycle) (hf : Rtl.fault s = none) :
    (Rtl.regs s).Ok s.cfg := by
  obtain ⟨-, hcmd, hbias⟩ := causes_of_noFault hf
  exact {
    power := hOk.power.rtl
    frame := hOk.frame.rtl hc.valid
    powered := powered_rtl hOk.powered
    inj := hOk.inj.rtl hc.valid
    cmdSer := hOk.cmdSer.rtl (by decide) _
    biasSer := hOk.biasSer.rtl (by decide) _
    des := hOk.des.rtl
    cmdQ := length_queue_le _ _ _ _ hOk.cmdQ hcmd
    biasQ := length_queue_le _ _ _ _ hOk.biasQ hbias
    bridgeQ := length_queue_le _ _ _ _ hOk.bridgeQ fun he => by
      rw [emitted_isSome, Bool.and_eq_true] at he
      exact length_bridgeQ_of_bwRdy he.2
    rstCnt := hOk.rstCnt
    hold := fun h => absurd h (Nat.not_lt.2 hc.running) }

/-- Every step keeps the ranges: the reset values are in range, and each kind of step keeps them. -/
theorem Regs.Ok.step (hOk : s.now.Ok s.cfg) (h : Machine.step s = .next t) : t.now.Ok t.cfg := by
  obtain ⟨-, hcfg, -, -, -, hx⟩ := step_inv h
  rw [hcfg]
  rcases hx with ⟨-, hn⟩ | ⟨-, -, hn⟩ | ⟨-, -, hr, hn⟩ | ⟨hc, hn⟩ <;> rw [hn]
  · exact Regs.Ok.reset _ _
  · exact hOk.host
  · rw [heldInReset_of_ok hOk hr]; exact hOk
  · cases hf : Rtl.fault s with
    | none => rw [next_of_none hf]; exact hOk.rtl hc hf
    | some f => rw [next_of_some hf]; exact hOk.set _ _

/-- Settles O58: after a step nothing is left scheduled, and the registers are in range. -/
theorem stepKeepsTheInvariant : Obligations.StepKeepsTheInvariant := by
  intro s t hI h
  obtain ⟨-, -, hset, -⟩ := step_inv h
  exact ⟨hset, hI.regs.step h⟩

end Sys2Proof.Machine
end

section
/-! PROOF. Schedules: what holds of the sensor domain's registers is kept by every step once a sensor cycle without a
fault keeps it. The first is the alignment of the capture periods with the line (R39, R99). -/

namespace Sys2Proof.Machine

variable {s t : State} {cfg : Params}

/-- A property of registers that holds at reset, that speaks of no register the host, a fault or the reset hold
changes, and that a sensor cycle without a fault keeps, is kept by every step. -/
theorem keeps_of_rtl {P : Regs → Prop} (hOk : s.now.Ok s.cfg) (h : step s = .next t) (hreset : P Regs.reset)
    (hframe : ∀ r q n b f, P r → P { r with bridgeQ := q, rstCnt := n, hostStream := b, fault := f })
    (hcycle : s.SensorCycle → Rtl.fault s = none → P (Rtl.regs s)) (hP : P s.now) : P t.now := by
  obtain ⟨-, -, -, -, -, hx⟩ := step_inv h
  rcases hx with ⟨-, hn⟩ | ⟨-, -, hn⟩ | ⟨-, -, hr, hn⟩ | ⟨hc, hn⟩ <;> rw [hn]
  · exact hframe Regs.reset [] 0 s.now.hostStream none hreset
  · rw [host_effect_frame]; exact hframe _ _ _ _ s.now.fault hP
  · rw [heldInReset_of_ok hOk hr]; exact hP
  · cases hf : Rtl.fault s with
    | none => rw [next_of_none hf]; exact hcycle hc hf
    | some f => rw [next_of_some hf]; exact hframe s.now s.now.bridgeQ s.now.rstCnt s.now.hostStream (some f) hP

/-- A fault recorded by a step without one before is the fault of a sensor cycle. -/
theorem fault_of_step (h : step s = .next t) (hs : s.now.fault = none) {f : FaultRecord}
    (hf : t.now.fault = some f) : s.SensorCycle ∧ Rtl.fault s = some f := by
  obtain ⟨-, -, -, -, -, hx⟩ := step_inv h
  rcases hx with ⟨-, hn⟩ | ⟨-, -, hn⟩ | ⟨-, -, -, hn⟩ | ⟨hc, hn⟩ <;> rw [hn] at hf
  · cases hf
  · obtain ⟨hcontrol, -⟩ := host_effect_control s
    rw [hcontrol.fault, hs] at hf
    cases hf
  · rw [Regs.heldInReset_fault, hs] at hf
    cases hf
  · exact ⟨hc, by rwa [next_fault] at hf⟩

/-! ### The capture periods and the line -/

/-- At reset nothing has been accumulated. -/
theorem Regs.Aligned.reset (cfg : Params) : Regs.reset.Aligned cfg where
  within h := absurd h (by decide)
  after h := absurd h (by decide)
  elsewhere _ _ := rfl

/-- `dcnt` counts a capture period within a line and is 0 outside (R89 to R91). -/
theorem deserializer_dcnt (hd : s.now.des.dcnt ≤ 13) :
    (Rtl.deserializer s).dcnt = if s.now.latchEn then (s.now.des.dcnt + 1) % 14 else 0 := by
  simp only [Rtl.deserializer]
  cases s.now.latchEn with
  | false => rfl
  | true =>
    by_cases h13 : s.now.des.dcnt = 13
    · simp [h13]
    · have hlt : s.now.des.dcnt + 1 < 14 := by omega
      simp [h13, Nat.mod_eq_of_lt hlt]

/-- A sensor cycle keeps the capture periods aligned with the line. -/
theorem Regs.Aligned.rtl (hOk : s.now.Ok s.cfg) (hA : s.now.Aligned s.cfg) : (Rtl.regs s).Aligned s.cfg := by
  obtain ⟨hd, -⟩ := hOk.des
  have hdcnt : (Rtl.regs s).des.dcnt = if s.now.latchEn then (s.now.des.dcnt + 1) % 14 else 0 := deserializer_dcnt hd
  have hline : s.now.frame.state = Fc.readLine → (Rtl.regs s).des.dcnt = (s.now.frame.lineCnt + 1) % 14 := by
    intro hs
    rw [hdcnt, if_pos (by simp [Regs.latchEn, hs]), hA.within hs, Nat.mod_add_mod]
  have hzero : s.now.frame.state ≠ Fc.readLine → (Rtl.regs s).des.dcnt = 0 := by
    intro hs
    rw [hdcnt, latchEn_eq_false_iff.2 hs]; rfl
  have hf' : (Rtl.regs s).frame = Rtl.frame s := rfl
  cases frameMove_of_ok hOk.frame with
  | lineCount l k hl hk h h' =>
    rw [h] at hline
    exact ⟨fun _ => by rw [hline rfl, hf', h'], fun hs => by simp [hf', h'] at hs, fun hs => by simp [hf', h'] at hs⟩
  | lineEnd l k hl hk h h' | lastLineEnd l k hl hk h h' =>
    rw [h] at hline
    exact ⟨fun hs => by simp [hf', h'] at hs, fun _ _ => by rw [hline rfl, hl], fun _ hn => by simp [hf', h'] at hn⟩
  | startEnd _ _ _ h h' | gapEnd _ _ _ _ h h' =>
    have h0 := hzero (by simp [h])
    exact ⟨fun _ => by simp [h0, hf', h'], fun hs => by simp [hf', h'] at hs, fun _ _ => h0⟩
  | powerupWait _ h h' | powerupEnd _ h h' | initCount _ _ h h' | initEnd _ _ h h' | send _ h h' | strobe _ h h'
  | nextWord _ _ _ h h' | lastWord h h' | startHold _ _ _ h h' | startCount _ _ _ h h' | gapCount _ _ _ _ h h'
  | betweenCount _ _ h h' | betweenEnd _ _ h h' =>
    have h0 := hzero (by simp [h])
    exact ⟨fun hs => by simp [hf', h'] at hs, fun hs hl => by simp [hf', h'] at hs hl, fun _ _ => h0⟩

/-- In aligned registers a pair is completed exactly in each 14th cycle of a line (R91). -/
theorem Regs.Aligned.captures_iff {r : Regs} (hA : r.Aligned cfg) :
    r.captures = true ↔ r.frame.state = Fc.readLine ∧ r.frame.lineCnt % 14 = 13 := by
  rw [Regs.captures, Regs.latchEn, Bool.and_eq_true, beq_iff_eq, beq_iff_eq]
  exact and_congr_right fun hs => by rw [hA.within hs]

/-- Settles O20: each move of the FrameController keeps `dcnt` aligned. -/
theorem captureFollowsTheLine : Obligations.CaptureFollowsTheLine := by
  refine ⟨fun s t hI hA h => ?_, fun s _ hA => hA.captures_iff⟩
  obtain ⟨-, hcfg, -⟩ := step_inv h
  rw [hcfg]
  exact keeps_of_rtl (P := (·.Aligned s.cfg)) hI.regs h (Regs.Aligned.reset s.cfg)
    (fun _ _ _ _ _ h => ⟨h.within, h.after, h.elsewhere⟩) (fun _ _ => hA.rtl hI.regs) hA

end Sys2Proof.Machine
end

section
/-! PROOF. The command stream keeps its schedule (R118, R150): what one sensor cycle makes of a serializer and its
queue, and where the stream is in each state of the FrameController. -/

namespace Sys2Proof.Machine

variable {s t : State} {r : Regs} {cfg : Params}

/-! ### One cycle of a serializer and its queue, by number -/

/-- A serializer sending a word counts the bit; its queue only grows. -/
theorem serializer_busy {w : Nat} {o : BitOrder} {x : Serializer w} {q : List (BitVec w)} (hx : x.haveWord = true)
    (push : Option (BitVec w)) :
    ((Rtl.serializer o x q).haveWord = true ↔ x.bitcnt + 1 ≠ w) ∧
    (Rtl.serializer o x q).bitcnt = (if x.bitcnt + 1 = w then 0 else x.bitcnt + 1) ∧
    (Rtl.queue q (Rtl.loads x q) push).length = q.length + push.toList.length := by
  simp only [Rtl.serializer, Rtl.queue, Rtl.loads, hx, if_true, Bool.not_true, Bool.false_and, if_false,
    List.length_append, Bool.false_eq_true, and_true]
  split <;> simp [*]

/-- A serializer with no word loads the head of its queue. -/
theorem serializer_load {w : Nat} {o : BitOrder} {x : Serializer w} {q : List (BitVec w)} (hx : x.haveWord = false)
    (hq : 0 < q.length) (push : Option (BitVec w)) :
    (Rtl.serializer o x q).haveWord = true ∧ (Rtl.serializer o x q).bitcnt = 1 ∧
    (Rtl.queue q (Rtl.loads x q) push).length + 1 = q.length + push.toList.length := by
  obtain ⟨word, q, rfl⟩ := List.exists_cons_of_length_pos hq
  rw [serializer_cons hx, queue_loads_cons hx, List.length_append, List.length_cons]
  exact ⟨rfl, rfl, by omega⟩

/-- A serializer with no word and no queued word stays; what is pushed waits for the next cycle. -/
theorem serializer_idle {w : Nat} {o : BitOrder} {x : Serializer w} {q : List (BitVec w)} (hx : x.haveWord = false)
    (hq : q.length = 0) (push : Option (BitVec w)) :
    Rtl.serializer o x q = x ∧ Rtl.queue q (Rtl.loads x q) push = push.toList := by
  obtain rfl := List.length_eq_zero_iff.1 hq
  exact ⟨serializer_nil hx, by simp [Rtl.queue, Rtl.loads, rRdy]⟩

/-- A serializer between words counts no bit and its shift register is empty (R20). -/
theorem Serializer.Ok.clear {w : Nat} {o : BitOrder} {x : Serializer w} (h : x.Ok o) (hx : x.haveWord = false) :
    x.bitcnt = 0 ∧ x.sr = 0 := by
  simpa [Serializer.Ok, hx] using h

/-! ### The command stream -/

/-- With nothing pending the serializer stays, and its queue holds what the cycle pushes. -/
theorem cmdSer_rtl_of_done (hd : s.now.cmdDone = true) :
    (Rtl.regs s).cmdSer = s.now.cmdSer ∧ (Rtl.regs s).cmdQ = (Rtl.cmdPush s).toList := by
  obtain ⟨hx, hq⟩ := cmdDone_iff.1 hd
  exact serializer_idle hx (by rw [hq]; rfl) _

/-- Without a push, nothing pending stays so. -/
theorem cmdDone_rtl (hd : s.now.cmdDone = true) (hs : s.now.frame.state ≠ Fc.sendCmd) :
    (Rtl.regs s).cmdDone = true := by
  obtain ⟨hser, hqueue⟩ := cmdSer_rtl_of_done hd
  rw [cmdDone_iff, hser, hqueue, cmdPush_of_ne hs]
  exact ⟨(cmdDone_iff.1 hd).1, rfl⟩

/-- Nothing is pending in a stream exactly when all words pushed have been sent. -/
theorem Regs.cmdStreamAt.cmdDone_iff {n m : Nat} (h : r.cmdStreamAt n m) :
    r.cmdDone = true ↔ m % 14 = 0 ∧ n = (m + 13) / 14 := by
  obtain ⟨hq, -, hw⟩ := h
  rw [Machine.cmdDone_iff, ← Bool.not_eq_true, hw, ← List.length_eq_zero_iff]
  omega

/-- A stream whose next word is there in time goes on without a gap (R118). -/
theorem Regs.cmdStreamAt.rtl {n m : Nat} (h : s.now.cmdStreamAt n m) (hnext : m % 14 = 0 → (m + 13) / 14 < n) :
    (Rtl.regs s).cmdStreamAt (n + (Rtl.cmdPush s).toList.length) (m + 1) := by
  obtain ⟨hq, hb, hw⟩ := h
  simp only [Regs.cmdStreamAt, Rtl.regs]
  by_cases hm : m % 14 = 0
  · obtain ⟨hx, hx', hq'⟩ := serializer_load (o := s.cfg.cmdBitOrder) (by simpa [hm] using hw)
      (show 0 < s.now.cmdQ.length by have := hnext hm; omega) (Rtl.cmdPush s)
    exact ⟨by omega, by omega, by simp only [hx, true_iff]; omega⟩
  · obtain ⟨hx, hx', hq'⟩ := serializer_busy (o := s.cfg.cmdBitOrder) (q := s.now.cmdQ) (hw.2 hm) (Rtl.cmdPush s)
    rw [hx', hx, hb]
    exact ⟨by omega, by split <;> omega, by omega⟩

/-! ### The schedule in each state of the FrameController -/

/-- The schedule in SendCmd: the words before this one are pushed (R118). -/
theorem cmdSchedule_sendCmd_iff (h : r.frame.state = Fc.sendCmd) :
    r.CmdSchedule ↔ r.cmdStreamAt r.frame.cmdIdx (3 * r.frame.cmdIdx - 1) := by
  refine ⟨fun hS => ?_, fun hm => ⟨fun e he => ?_, fun hw => ?_, fun hw => ?_⟩⟩
  · simpa [h] using hS.sending _ (.inl ⟨h, rfl⟩)
  · obtain rfl : e = 3 * r.frame.cmdIdx := by simpa [Frame.sending, h] using he
    simpa [h] using hm
  · simp [h] at hw
  · simp [h] at hw

/-- The schedule in the strobe: this word is pushed. -/
theorem cmdSchedule_strobe_iff (h : r.frame.state = Fc.sendCmdStrobe) :
    r.CmdSchedule ↔ r.cmdStreamAt (r.frame.cmdIdx + 1) (3 * r.frame.cmdIdx) := by
  refine ⟨fun hS => ?_, fun hm => ⟨fun e he => ?_, fun hw => ?_, fun hw => ?_⟩⟩
  · simpa [h] using hS.sending _ (.inr (.inl ⟨h, rfl⟩))
  · obtain rfl : e = 3 * r.frame.cmdIdx + 1 := by simpa [Frame.sending, h] using he
    simpa [h] using hm
  · simp [h] at hw
  · simp [h] at hw

/-- The schedule in SendCmdAdvance, one cycle on. -/
theorem cmdSchedule_advance_iff (h : r.frame.state = Fc.sendCmdAdvance) :
    r.CmdSchedule ↔ r.cmdStreamAt (r.frame.cmdIdx + 1) (3 * r.frame.cmdIdx + 1) := by
  refine ⟨fun hS => ?_, fun hm => ⟨fun e he => ?_, fun hw => ?_, fun hw => ?_⟩⟩
  · simpa [h] using hS.sending _ (.inr (.inr ⟨h, rfl⟩))
  · obtain rfl : e = 3 * r.frame.cmdIdx + 2 := by simpa [Frame.sending, h] using he
    simpa [h] using hm
  · simp [h] at hw
  · simp [h] at hw

/-- The schedule in the wait for the first line: the twelve words leave, then nothing is pending. -/
theorem cmdSchedule_wait_iff (h : r.frame.state = Fc.waitFrameStart) :
    r.CmdSchedule ↔
      (r.frame.lineCnt = 0 ∧ ∃ m, 35 ≤ m ∧ m < 168 ∧ r.cmdStreamAt 12 m) ∨ r.cmdDone = true :=
  ⟨fun hS => hS.waiting h, fun hm => ⟨fun e he => by simp [Frame.sending, h] at he, fun _ => hm,
    fun hw => by simp [h] at hw⟩⟩

/-- Outside the sending and the wait for `cmd_done` the line is idle. -/
theorem cmdSchedule_elsewhere_iff (h : r.frame.state = Fc.powerup ∨ r.frame.state = Fc.init ∨
    r.frame.state = Fc.readLine ∨ r.frame.state = Fc.waitLine ∨ r.frame.state = Fc.interFrame) :
    r.CmdSchedule ↔ r.cmdDone = true := by
  refine ⟨fun hS => hS.elsewhere h, fun hd => ⟨fun e he => ?_, fun hw => ?_, fun _ => hd⟩⟩
  · rcases h with h | h | h | h | h <;> simp [Frame.sending, h] at he
  · rcases h with h | h | h | h | h <;> simp [h] at hw

/-- While the FrameController waits for `cmd_done`, before its first counted cycle, the stream is on its way. -/
theorem Regs.CmdSchedule.streaming (hS : r.CmdSchedule) (h : r.frame.state = Fc.waitFrameStart)
    (hd : r.cmdDone = false) : r.frame.lineCnt = 0 ∧ ∃ m, 35 ≤ m ∧ m < 168 ∧ r.cmdStreamAt 12 m := by
  rcases hS.waiting h with hw | hw
  · exact hw
  · rw [hw] at hd; cases hd

/-- The wait for `cmd_done` starts 35 cycles after the first load (R118). -/
theorem Regs.CmdSchedule.rtl_lastWord (hS : s.now.CmdSchedule) (h : s.now.frame = ⟨Fc.sendCmdAdvance, 0, 11, 0, 0⟩) :
    (Rtl.regs s).cmdStreamAt 12 35 := by
  rw [cmdSchedule_advance_iff (by rw [h]), h] at hS
  have := hS.rtl (by decide)
  rwa [cmdPush_of_ne (by simp [h])] at this

/-- In the wait for `cmd_done` the stream goes on without a gap. -/
theorem Regs.CmdSchedule.rtl_streaming (hS : s.now.CmdSchedule) (h : s.now.frame.state = Fc.waitFrameStart)
    (hd : s.now.cmdDone = false) : s.now.frame.lineCnt = 0 ∧
      ∃ m, 35 ≤ m ∧ m < 168 ∧ s.now.cmdStreamAt 12 m ∧ (Rtl.regs s).cmdStreamAt 12 (m + 1) := by
  obtain ⟨hl, m, hm, hm', hstream⟩ := hS.streaming h hd
  have := hstream.rtl (by omega)
  rw [cmdPush_of_ne (by simp [h])] at this
  exact ⟨hl, m, hm, hm', hstream, this⟩

/-- A sensor cycle keeps the schedule of the command stream. -/
theorem Regs.CmdSchedule.rtl (hv : s.cfg.Valid) (hOk : s.now.Ok s.cfg) (hS : s.now.CmdSchedule) :
    (Rtl.regs s).CmdSchedule := by
  have hf' : (Rtl.regs s).frame = Rtl.frame s := rfl
  cases frameMove_of_ok hOk.frame with
  | send k h h' =>
    rw [cmdSchedule_sendCmd_iff (by rw [h])] at hS
    rw [cmdSchedule_strobe_iff (by rw [hf', h']), hf', h']
    rw [h] at hS
    obtain ⟨w, hw⟩ := cmdPush_of_sendCmd hv (s := s) (by rw [h])
    have hpush : (Rtl.cmdPush s).toList.length = 1 := by rw [hw]; rfl
    by_cases hk : k.val = 0
    · obtain ⟨hser, hqueue⟩ := cmdSer_rtl_of_done (hS.cmdDone_iff.2 (by simp [hk]))
      obtain ⟨-, hb, hx⟩ := hS
      rw [Regs.cmdStreamAt, hser, hqueue, hpush]
      simpa [hk] using And.intro hb hx
    · have := hS.rtl (by dsimp only; omega)
      rwa [hpush, show 3 * k.val - 1 + 1 = 3 * k.val by omega] at this
  | strobe k h h' =>
    rw [cmdSchedule_strobe_iff (by rw [h]), h] at hS
    rw [cmdSchedule_advance_iff (by rw [hf', h']), hf', h']
    have := hS.rtl (by dsimp only; omega)
    rwa [cmdPush_of_ne (by simp [h])] at this
  | nextWord k j hk h h' =>
    rw [cmdSchedule_advance_iff (by rw [h]), h] at hS
    rw [cmdSchedule_sendCmd_iff (by rw [hf', h']), hf', h']
    have := hS.rtl (by dsimp only; omega)
    rw [cmdPush_of_ne (by simp [h])] at this
    simpa [hk, Nat.mul_add] using this
  | lastWord h h' =>
    rw [cmdSchedule_wait_iff (by rw [hf', h'])]
    exact .inl ⟨by rw [hf', h'], 35, le_rfl, by decide, hS.rtl_lastWord h⟩
  | startHold l hl hd h h' =>
    obtain ⟨hl0, m, hm, hm', -, hstream⟩ := hS.rtl_streaming (by rw [h]) hd
    rw [h] at hl0
    rw [cmdSchedule_wait_iff (by rw [hf', h'])]
    by_cases hlast : m + 1 = 168
    · exact .inr (hstream.cmdDone_iff.2 (by rw [hlast]; decide))
    · exact .inl ⟨by rw [hf', h']; exact hl0, m + 1, by omega, by omega, hstream⟩
  | initEnd i hi h h' =>
    have hd := (cmdSchedule_elsewhere_iff (by simp [h])).1 hS
    rw [cmdSchedule_sendCmd_iff (by rw [hf', h']), hf', h']
    obtain ⟨hx, -⟩ := cmdDone_iff.1 hd
    obtain ⟨hser, hqueue⟩ := cmdSer_rtl_of_done hd
    obtain ⟨hb, -⟩ := hOk.cmdSer.clear hx
    simp [Regs.cmdStreamAt, hser, hqueue, cmdPush_of_ne (s := s) (by simp [h]), hx, hb]
  | startCount l hl hd h h' =>
    exact (cmdSchedule_wait_iff (by rw [hf', h'])).2 (.inr (cmdDone_rtl hd (by simp [h])))
  | startEnd l hl hd h h' =>
    exact (cmdSchedule_elsewhere_iff (by simp [hf', h'])).2 (cmdDone_rtl hd (by simp [h]))
  | powerupWait _ h h' | powerupEnd _ h h' | initCount _ _ h h' | lineCount _ _ _ _ h h' | lineEnd _ _ _ _ h h'
  | lastLineEnd _ _ _ _ h h' | gapCount _ _ _ _ h h' | gapEnd _ _ _ _ h h' | betweenCount _ _ h h'
  | betweenEnd _ _ h h' =>
    have hd := (cmdSchedule_elsewhere_iff (by simp [h])).1 hS
    exact (cmdSchedule_elsewhere_iff (by simp [hf', h'])).2 (cmdDone_rtl hd (by simp [h]))

/-! ### The depth of the command queue -/

/-- The fault of a sensor cycle, and its cause (R131). -/
theorem fault_cause {f : FaultRecord} (h : Rtl.fault s = some f) :
    (f.code = .illegalState ∧ 9 ≤ s.now.frame.state.toNat) ∨
    (f.code = .biasRetrigger ∧ s.biasTrigger = true ∧ s.now.inj.active = true) ∨
    (f.code = .cmdQueueOverflow ∧ s.now.frame.state = Fc.sendCmd ∧ s.cfg.cmdQDepth ≤ s.now.cmdQ.length) ∨
    (f.code = .biasQueueOverflow ∧ s.now.inj.active = true ∧ s.now.inj.phase = false ∧
      s.cfg.biasQDepth ≤ s.now.biasQ.length) := by
  unfold Rtl.fault at h
  split at h
  next hst => cases h; exact .inl ⟨rfl, hst⟩
  split at h
  next ht => cases h; exact .inr (.inl ⟨rfl, Bool.and_eq_true_iff.1 ht⟩)
  split at h
  next hq =>
    cases h
    obtain ⟨hpush, hfull⟩ := Bool.and_eq_true_iff.1 hq
    refine .inr (.inr (.inl ⟨rfl, ?_, by simpa [wRdy] using hfull⟩))
    by_contra hne
    rw [cmdPush_of_ne hne] at hpush
    cases hpush
  split at h
  next hq =>
    cases h
    obtain ⟨hpush, hfull⟩ := Bool.and_eq_true_iff.1 hq
    have : s.now.inj.active = true ∧ s.now.inj.phase = false := by
      by_contra hne
      simp [Rtl.biasPush] at hpush
      exact hne hpush
    exact .inr (.inr (.inr ⟨rfl, this.1, this.2, by simpa [wRdy] using hfull⟩))
  next => cases h

/-- When word `k` is pushed, `k` words less those loaded are queued; at most eight, for the last (R150). -/
theorem Regs.CmdSchedule.length_cmdQ (hS : r.CmdSchedule) (h : r.frame.state = Fc.sendCmd) :
    r.cmdQ.length = r.frame.cmdIdx - (3 * r.frame.cmdIdx - 1 + 13) / 14 := by
  obtain ⟨hq, -⟩ := (cmdSchedule_sendCmd_iff h).1 hS
  omega

/-- At reset nothing is being sent. -/
theorem Regs.CmdSchedule.reset : Regs.reset.CmdSchedule := (cmdSchedule_elsewhere_iff (.inl rfl)).2 rfl

/-- Every step keeps the schedule of the command stream. -/
theorem Regs.CmdSchedule.step (hOk : s.now.Ok s.cfg) (hS : s.now.CmdSchedule) (h : Machine.step s = .next t) :
    t.now.CmdSchedule :=
  keeps_of_rtl (P := Regs.CmdSchedule) hOk h .reset (fun _ _ _ _ _ h => ⟨h.sending, h.waiting, h.elsewhere⟩)
    (fun hc _ => hS.rtl hc.valid hOk) hS

/-- Settles O38: a push meets at most eight queued words. -/
theorem commandScheduleIsKept : Obligations.CommandScheduleIsKept := by
  refine fun s t hI hS h => ⟨hS.step hI.regs h, fun hdepth hs f hf hcode => ?_⟩
  obtain ⟨-, hfault⟩ := fault_of_step h hs hf
  rcases fault_cause hfault with ⟨hc, -⟩ | ⟨hc, -⟩ | ⟨-, hst, hfull⟩ | ⟨hc, -⟩
  · rw [hcode] at hc; cases hc
  · rw [hcode] at hc; cases hc
  · have := hS.length_cmdQ hst
    omega
  · rw [hcode] at hc; cases hc

/-- The FrameController has not come past the sending of the command words, nor pushed the last one. -/
def Frame.BeforeLastWord (f : Frame) : Prop :=
  f.state = Fc.powerup ∨ f.state = Fc.init ∨ f.state = Fc.sendCmd ∨
    ((f.state = Fc.sendCmdStrobe ∨ f.state = Fc.sendCmdAdvance) ∧ f.cmdIdx ≠ 11)

/-- With a command queue of at most eight entries the last word finds it full, so a cycle without a fault pushes
another (R150). -/
theorem Frame.BeforeLastWord.rtl (hOk : s.now.Ok s.cfg) (hS : s.now.CmdSchedule) (hc : s.SensorCycle)
    (hf : Rtl.fault s = none) (hdepth : s.cfg.cmdQDepth ≤ 8) (hb : s.now.frame.BeforeLastWord) :
    (Rtl.frame s).BeforeLastWord := by
  cases frameMove_of_ok hOk.frame with
  | powerupWait _ _ h' => exact .inl (by rw [h'])
  | powerupEnd _ _ h' | initCount _ _ _ h' => exact .inr (.inl (by rw [h']))
  | initEnd _ _ _ h' | nextWord _ _ _ _ h' => exact .inr (.inr (.inl (by rw [h'])))
  | strobe k h h' => simpa [Frame.BeforeLastWord, h, h'] using hb
  | send k h h' =>
    obtain ⟨-, hcmd, -⟩ := causes_of_noFault hf
    obtain ⟨w, hw⟩ := cmdPush_of_sendCmd hc.valid (s := s) (by rw [h])
    have hlen := hS.length_cmdQ (by rw [h])
    have hspace := hcmd (by rw [hw]; rfl)
    refine .inr (.inr (.inr ⟨.inl (by rw [h']), ?_⟩))
    rw [h']
    rw [h] at hlen
    rintro rfl
    simp at hlen
    omega
  | lastWord h _ | startHold _ _ _ h _ | startCount _ _ _ h _ | startEnd _ _ _ h _ | lineCount _ _ _ _ h _
  | lineEnd _ _ _ _ h _ | lastLineEnd _ _ _ _ h _ | gapCount _ _ _ _ h _ | gapEnd _ _ _ _ h _
  | betweenCount _ _ h _ | betweenEnd _ _ h _ => simp [Frame.BeforeLastWord, h] at hb

/-- What a run from reset keeps when the command queue is too shallow. -/
structure State.StuckSending (s : State) : Prop where
  ok : s.now.Ok s.cfg
  schedule : s.now.CmdSchedule
  depth : s.cfg.cmdQDepth ≤ 8
  before : s.now.frame.BeforeLastWord

/-- Every step keeps it. -/
theorem State.StuckSending.step (hs : s.StuckSending) (h : Machine.step s = .next t) : t.StuckSending where
  ok := hs.ok.step h
  schedule := hs.schedule.step hs.ok h
  depth := by
    obtain ⟨-, hcfg, -⟩ := step_inv h
    rw [hcfg]; exact hs.depth
  before := keeps_of_rtl (P := (·.frame.BeforeLastWord)) hs.ok h (.inl rfl) (fun _ _ _ _ _ h => h)
    (fun hc hf => hs.before.rtl hs.ok hs.schedule hc hf hs.depth) hs.before

/-- Settles O39: the run stays before the last word, and so before WaitFrameStart and ReadLine. -/
theorem shallowCommandQueueFaults : Obligations.ShallowCommandQueueFaults := by
  intro s t _ hdepth hreset hrun
  have hs : s.StuckSending :=
    ⟨by rw [hreset]; exact Regs.Ok.reset s.cfg [], by rw [hreset]; exact .reset, hdepth, by rw [hreset]; exact .inl rfl⟩
  have hb := (hrun.keeps (P := State.StuckSending) (fun hP _ h => hP.step h) hs).before
  constructor <;> intro hst <;> simp [Frame.BeforeLastWord, hst] at hb

end Sys2Proof.Machine
end

section
/-! PROOF. The timeline (R78, R118): the position in the frame and the number of the sensor cycle advance together. -/

namespace Sys2Proof.Machine

variable {s t : State} {r : Regs} {cfg : Params}

/-! ### The position in the frame, by the state of the FrameController -/

/-- While the words are being sent out, it is told by the stream. -/
theorem framePos_streaming {m : Nat} (h : r.frame = ⟨Fc.waitFrameStart, 0, 11, 0, 0⟩) (hm : m ≤ 168)
    (hstream : r.cmdStreamAt 12 m) : r.framePos cfg = cfg.initCycles + 1 + m := by
  obtain ⟨hq, hb, hw⟩ := hstream
  simp only [Regs.framePos, h]
  by_cases hx : r.cmdSer.haveWord = true
  · have := hw.1 hx
    simp [hx]; omega
  · have hx' := mt hw.2 hx
    simp [hx]; omega

/-- After `cmd_done` it counts with `line_cnt`. -/
theorem framePos_waiting {l : Nat} (h : r.frame = ⟨Fc.waitFrameStart, 0, 11, l, 0⟩) (hd : r.cmdDone = true) :
    r.framePos cfg = cfg.initCycles + 169 + l := by
  obtain ⟨hx, hq⟩ := cmdDone_iff.1 hd
  simp [Regs.framePos, h, hx, hq]
  omega

/-- A sensor cycle out of Powerup advances the position by one, from the last one of a frame to 0 (R118). -/
theorem framePos_rtl (hv : s.cfg.Valid) (hOk : s.now.Ok s.cfg) (hS : s.now.CmdSchedule)
    (hne : s.now.frame.state ≠ Fc.powerup) :
    (s.now.framePos s.cfg + 1 < s.cfg.framePeriod ∧
      (Rtl.regs s).framePos s.cfg = s.now.framePos s.cfg + 1) ∨
    (s.now.framePos s.cfg + 1 = s.cfg.framePeriod ∧ (Rtl.regs s).framePos s.cfg = 0) := by
  obtain ⟨-, -, hR, -⟩ := Params.bounds_of_valid hv
  have hT := Params.framePeriod_eq s.cfg hR
  have hLG : s.cfg.interFrameCycles = s.cfg.lineCycles + s.cfg.lineStartOffset := rfl
  have hzero := Params.lineStart_zero s.cfg
  have hlast := Params.lineStart_mono s.cfg (Nat.zero_le (s.cfg.rows - 1))
  have hL := Params.lineCycles_ge hv
  have hf' : (Rtl.regs s).frame = Rtl.frame s := rfl
  cases frameMove_of_ok hOk.frame with
  | powerupWait _ h _ | powerupEnd _ h _ => simp [h] at hne
  | initCount _ _ h h' | initEnd _ _ h h' | send _ h h' | strobe _ h h' =>
    left
    simp [Regs.framePos, hf', h, h']
    omega
  | nextWord k j hk h h' =>
    left
    simp [Regs.framePos, hf', h, h', hk]
    omega
  | lastWord h h' =>
    left
    rw [framePos_streaming (hf'.trans h') (by decide) (hS.rtl_lastWord h)]
    simp [Regs.framePos, h]
    omega
  | startHold l hl hd h h' =>
    left
    obtain ⟨hl0, m, -, hm, hstream, hstream'⟩ := hS.rtl_streaming (by rw [h]) hd
    obtain rfl : l = 0 := by rwa [h] at hl0
    rw [framePos_streaming h hm.le hstream, framePos_streaming (hf'.trans h') hm hstream']
    omega
  | startCount l hl hd h h' =>
    left
    rw [framePos_waiting h hd, framePos_waiting (hf'.trans h') (cmdDone_rtl hd (by simp [h]))]
    omega
  | startEnd l hl hd h h' =>
    left
    rw [framePos_waiting h hd]
    simp [Regs.framePos, hf', h']
    omega
  | lineCount l k hl hk h h' =>
    left
    have := Params.lineStart_mono s.cfg (show k ≤ s.cfg.rows - 1 by omega)
    simp [Regs.framePos, hf', h, h']
    omega
  | lineEnd l k hl hk h h' =>
    left
    have := Params.lineStart_mono s.cfg (show k ≤ s.cfg.rows - 1 by omega)
    simp [Regs.framePos, hf', h, h']
    omega
  | lastLineEnd l k hl hk h h' =>
    left
    obtain rfl : k = s.cfg.rows - 1 := by omega
    simp [Regs.framePos, hf', h, h']
    omega
  | gapCount l k hl hk h h' =>
    left
    have := Params.lineStart_mono s.cfg (show k ≤ s.cfg.rows - 1 by omega)
    simp [Regs.framePos, hf', h, h']
    omega
  | gapEnd l k hl hk h h' =>
    left
    have := Params.lineStart_mono s.cfg (show k + 1 ≤ s.cfg.rows - 1 by omega)
    have := Params.lineStart_succ s.cfg k
    simp [Regs.framePos, hf', h, h']
    omega
  | betweenCount l hl h h' =>
    left
    simp [Regs.framePos, hf', h, h']
    omega
  | betweenEnd l hl h h' =>
    right
    simp [Regs.framePos, hf', h, h']
    omega

/-- The same, counted modulo the period of a frame. -/
theorem framePos_rtl_mod (hv : s.cfg.Valid) (hOk : s.now.Ok s.cfg) (hS : s.now.CmdSchedule)
    (hne : s.now.frame.state ≠ Fc.powerup) :
    (Rtl.regs s).framePos s.cfg = (s.now.framePos s.cfg + 1) % s.cfg.framePeriod := by
  rcases framePos_rtl hv hOk hS hne with ⟨hlt, hpos⟩ | ⟨hlast, hpos⟩
  · rw [hpos, Nat.mod_eq_of_lt hlt]
  · rw [hpos, hlast, Nat.mod_self]

/-! ### The number of the sensor cycle -/

/-- A sensor cycle spends one more cycle of the power sequence, up to P (R70, R78). -/
theorem elapsed_rtl {p : Power} (h : p.Ok cfg) :
    (Rtl.power cfg p).elapsed cfg = min cfg.readyCycle (p.elapsed cfg + 1) := by
  obtain ⟨st, cnt⟩ := p
  cases st with
  | boostEnabled => simp [Rtl.power, Power.elapsed]
  | init | rail3v3 | rail2v5 =>
    simp only [Power.Ok] at h
    simp only [Rtl.power]
    split <;> simp only [Power.elapsed, Params.readyCycle] <;> omega

/-- Powerup is left in cycle P. -/
theorem powerup_rtl (hI : s.Inv) (hT : s.now.OnTime s.cfg) :
    (Rtl.frame s).state = Fc.powerup ↔ s.now.cycle + 1 ≤ s.cfg.readyCycle := by
  by_cases hs : s.now.frame.state = Fc.powerup
  · have hle := hT.powerup.1 hs
    have hready := boostEnabled_iff_readyCycle hI hT hs
    rw [← ready_iff] at hready
    rw [frame_of_powerup hs]
    cases hr : s.now.ready with
    | true =>
      have := hready.1 hr
      simp; omega
    | false =>
      have : s.now.cycle ≠ s.cfg.readyCycle := fun hc => by rw [hready.2 hc] at hr; cases hr
      simp [hs]; omega
  · have hlt := mt hT.powerup.2 hs
    exact iff_of_false (fcState_ne_powerup hs) (by omega)

/-- A sensor cycle keeps the registers on time. -/
theorem Regs.OnTime.rtl (hv : s.cfg.Valid) (hI : s.Inv) (hS : s.now.CmdSchedule) (hT : s.now.OnTime s.cfg) :
    (Rtl.regs s).OnTime s.cfg where
  power := by
    have hp : (Rtl.regs s).power.elapsed s.cfg = _ := elapsed_rtl hI.regs.power
    have hc : (Rtl.regs s).cycle = s.now.cycle + 1 := rfl
    rw [hp, hc, hT.power]; omega
  powerup := powerup_rtl hI hT
  frame hne := by
    have hc : (Rtl.regs s).cycle = s.now.cycle + 1 := rfl
    have hlate := mt (powerup_rtl hI hT).2 hne
    by_cases hs : s.now.frame.state = Fc.powerup
    · have hle := hT.powerup.1 hs
      have hinit : (Rtl.regs s).frame = { s.now.frame with state := Fc.init, initCnt := 0 } := by
        have := frame_of_powerup hs
        split at this
        next => exact this
        next => exact absurd (show (Rtl.frame s).state = Fc.powerup by rw [this, hs]) hne
      have hpos : (Rtl.regs s).framePos s.cfg = 0 := by simp [Regs.framePos, hinit]
      rw [hpos, hc, show s.now.cycle + 1 - (s.cfg.readyCycle + 1) = 0 by omega, Nat.zero_mod]
    · have hlt := mt hT.powerup.2 hs
      rw [framePos_rtl_mod hv hI.regs hS hs, hT.frame hs, Nat.mod_add_mod, hc]
      congr 1; omega

/-- At reset no cycle has been counted. -/
theorem Regs.OnTime.reset (cfg : Params) : Regs.reset.OnTime cfg where
  power := (Nat.min_zero _).symm
  powerup := ⟨fun _ => Nat.zero_le _, fun _ => rfl⟩
  frame h := absurd rfl h

/-- Settles O42: a sensor cycle advances the clock and the position together, no other step changes either. -/
theorem runStaysOnTime : Obligations.RunStaysOnTime := by
  intro s t hI hS hT h
  obtain ⟨-, hcfg, -⟩ := step_inv h
  rw [hcfg]
  exact keeps_of_rtl (P := (·.OnTime s.cfg)) hI.regs h (.reset s.cfg)
    (fun _ _ _ _ _ h => ⟨h.power, h.powerup, h.frame⟩) (fun hc _ => hT.rtl hc.valid hI hS) hT

end Sys2Proof.Machine
end

section
/-! PROOF. What happens at each position of a frame (R118), and the latencies of the first one (R154). -/

namespace Sys2Proof.Machine

variable {s : State} {r : Regs} {cfg : Params}

/-! ### The places of the FrameController, with their positions -/

/-- Where the FrameController is, with the position in the frame that its counters and the command stream give. -/
inductive FramePlace (cfg : Params) (r : Regs) : Prop where
  | powerup (h : r.frame = ⟨Fc.powerup, 0, 0, 0, 0⟩)
  | init (i : Nat) (hi : i < cfg.initCycles) (h : r.frame = ⟨Fc.init, i, 0, 0, 0⟩) (hd : r.cmdDone = true)
      (hp : r.framePos cfg = i)
  | sendCmd (k : Fin 12) (h : r.frame = ⟨Fc.sendCmd, 0, k, 0, 0⟩) (hw : r.cmdStreamAt k (3 * k - 1))
      (hp : r.framePos cfg = cfg.initCycles + 3 * k)
  | strobe (k : Fin 12) (h : r.frame = ⟨Fc.sendCmdStrobe, 0, k, 0, 0⟩) (hw : r.cmdStreamAt (k + 1) (3 * k))
      (hp : r.framePos cfg = cfg.initCycles + 3 * k + 1)
  | advance (k : Fin 12) (h : r.frame = ⟨Fc.sendCmdAdvance, 0, k, 0, 0⟩)
      (hw : r.cmdStreamAt (k + 1) (3 * k + 1)) (hp : r.framePos cfg = cfg.initCycles + 3 * k + 2)
  | streaming (m : Nat) (hm : 35 ≤ m) (hm' : m < 168) (h : r.frame = ⟨Fc.waitFrameStart, 0, 11, 0, 0⟩)
      (hd : r.cmdDone = false) (hp : r.framePos cfg = cfg.initCycles + 1 + m)
  | waiting (l : Nat) (hl : l < cfg.cmdToLineStart) (h : r.frame = ⟨Fc.waitFrameStart, 0, 11, l, 0⟩)
      (hd : r.cmdDone = true) (hp : r.framePos cfg = cfg.initCycles + 169 + l)
  | line (k l : Nat) (hk : k < cfg.rows) (hl : l < cfg.lineCycles) (h : r.frame = ⟨Fc.readLine, 0, 11, l, k⟩)
      (hd : r.cmdDone = true) (hp : r.framePos cfg = cfg.lineStart k + l)
  | gap (k l : Nat) (hk : k + 1 < cfg.rows) (hl : l < cfg.lineStartOffset)
      (h : r.frame = ⟨Fc.waitLine, 0, 11, l, k + 1⟩) (hd : r.cmdDone = true)
      (hp : r.framePos cfg = cfg.lineStart k + cfg.lineCycles + l)
  | between (l : Nat) (hl : l < cfg.lineCycles + cfg.lineStartOffset)
      (h : r.frame = ⟨Fc.interFrame, 0, 0, l, 0⟩) (hd : r.cmdDone = true)
      (hp : r.framePos cfg = cfg.lineStart (cfg.rows - 1) + cfg.lineCycles + l)

/-- In the wait for the first line the command stream is on its way or done. -/
theorem framePlace_wait {l : Nat} (hS : r.CmdSchedule) (hl : l < cfg.cmdToLineStart)
    (h : r.frame = ⟨Fc.waitFrameStart, 0, 11, l, 0⟩) : FramePlace cfg r := by
  cases hd : r.cmdDone with
  | true => exact .waiting l hl h hd (framePos_waiting h hd)
  | false =>
    obtain ⟨hl0, m, hm, hm', hstream⟩ := hS.streaming (by rw [h]) hd
    obtain rfl : l = 0 := by rwa [h] at hl0
    exact .streaming m hm hm' h hd (framePos_streaming h hm'.le hstream)

/-- Registers in range that keep the command schedule are in one of the places. -/
theorem framePlace_of_ok (hOk : r.frame.Ok cfg) (hS : r.CmdSchedule) : FramePlace cfg r := by
  rcases hOk with ⟨hst, hi, hc, hl, hk⟩ | ⟨hst, hi, hc, hl, hk⟩ | ⟨hst, hi, hl, hk⟩ | ⟨hst, hi, hc, hl, hk⟩ |
    ⟨hst, hi, hc, hl, hk⟩ | ⟨hst, hi, hc, hl, hk, hk'⟩ | ⟨hst, hi, hc, hl, hk⟩
  · exact .powerup (Frame.eq_mk hst hi hc hl hk)
  · exact .init _ hi (Frame.eq_mk hst rfl hc hl hk) (hS.elsewhere (by simp [hst])) (by simp [Regs.framePos, hst])
  · rcases hst with hst | hst | hst
    · exact .sendCmd _ (Frame.eq_mk hst hi rfl hl hk) ((cmdSchedule_sendCmd_iff hst).1 hS)
        (by simp [Regs.framePos, hst])
    · exact .strobe _ (Frame.eq_mk hst hi rfl hl hk) ((cmdSchedule_strobe_iff hst).1 hS)
        (by simp [Regs.framePos, hst])
    · exact .advance _ (Frame.eq_mk hst hi rfl hl hk) ((cmdSchedule_advance_iff hst).1 hS)
        (by simp [Regs.framePos, hst])
  · exact framePlace_wait hS hl (Frame.eq_mk hst hi hc rfl hk)
  · exact .line _ _ hk hl (Frame.eq_mk hst hi hc rfl rfl) (hS.elsewhere (by simp [hst])) (by simp [Regs.framePos, hst])
  · obtain ⟨k, hk''⟩ : ∃ k, r.frame.rowCnt = k + 1 := ⟨_, (Nat.sub_add_cancel hk).symm⟩
    exact .gap k _ (hk'' ▸ hk') hl (Frame.eq_mk hst hi hc rfl hk'') (hS.elsewhere (by simp [hst]))
      (by simp [Regs.framePos, hst, hk''])
  · exact .between _ hl (Frame.eq_mk hst hi hc rfl hk) (hS.elsewhere (by simp [hst])) (by simp [Regs.framePos, hst])

/-! ### The lines of a frame -/

/-- A position before line 0 is in no line. -/
theorem not_in_line_of_lt {p : Nat} (h : p < cfg.lineStart 0) :
    ¬ ∃ k < cfg.rows, cfg.lineStart k ≤ p ∧ p < cfg.lineStart k + cfg.lineCycles := by
  rintro ⟨k, -, hk, -⟩
  have := Params.lineStart_mono cfg (Nat.zero_le k)
  omega

/-- A position after line `k` and before the next one, if there is one, is in no line. -/
theorem not_in_line_of_gap {p k : Nat} (h : cfg.lineStart k + cfg.lineCycles ≤ p)
    (h' : k + 1 < cfg.rows → p < cfg.lineStart (k + 1)) :
    ¬ ∃ j < cfg.rows, cfg.lineStart j ≤ p ∧ p < cfg.lineStart j + cfg.lineCycles := by
  rintro ⟨j, hj, hle, hlt⟩
  rcases Nat.lt_or_ge k j with hkj | hjk
  · have := Params.lineStart_mono cfg (show k + 1 ≤ j from hkj)
    have := h' (by omega)
    omega
  · have := Params.lineStart_mono cfg hjk
    omega

/-- `latch_en` is 1 in the L cycles from the start of each line. -/
theorem latchEn_iff_position (hP : FramePlace cfg r) (hne : r.frame.state ≠ Fc.powerup) :
    r.latchEn = true ↔
      ∃ k < cfg.rows, cfg.lineStart k ≤ r.framePos cfg ∧ r.framePos cfg < cfg.lineStart k + cfg.lineCycles := by
  have hzero := Params.lineStart_zero cfg
  rw [Regs.latchEn, beq_iff_eq]
  cases hP with
  | powerup h => exact absurd (by rw [h]) hne
  | init i hi h hd hp => exact iff_of_false (by simp [h]) (not_in_line_of_lt (by omega))
  | sendCmd k h hw hp | strobe k h hw hp | advance k h hw hp =>
    exact iff_of_false (by simp [h]) (not_in_line_of_lt (by omega))
  | streaming m hm hm' h hd hp => exact iff_of_false (by simp [h]) (not_in_line_of_lt (by omega))
  | waiting l hl h hd hp => exact iff_of_false (by simp [h]) (not_in_line_of_lt (by omega))
  | line k l hk hl h hd hp => exact iff_of_true (by rw [h]) ⟨k, hk, by omega, by omega⟩
  | gap k l hk hl h hd hp =>
    have := Params.lineStart_succ cfg k
    exact iff_of_false (by simp [h]) (not_in_line_of_gap (k := k) (by omega) (by omega))
  | between l hl h hd hp =>
    exact iff_of_false (by simp [h]) (not_in_line_of_gap (k := cfg.rows - 1) (by omega) (by omega))

/-- Line `k` is the only one that starts after the one before it and before the one after it. -/
theorem eq_of_lineStart {p k : Nat} (h : k = 0 ∨ cfg.lineStart (k - 1) < p) (h' : p < cfg.lineStart (k + 1)) {j : Nat}
    (hj : p = cfg.lineStart j) : j = k := by
  rcases Nat.lt_trichotomy j k with hlt | heq | hgt
  · have := Params.lineStart_mono cfg (show j ≤ k - 1 by omega)
    omega
  · exact heq
  · have := Params.lineStart_mono cfg (show k + 1 ≤ j from hgt)
    omega

/-- The bias trigger comes B + 1 cycles before each line (R102). -/
theorem biasTrigger_iff_position (hv : s.cfg.Valid) (hP : FramePlace s.cfg s.now)
    (hne : s.now.frame.state ≠ Fc.powerup) :
    s.biasTrigger = true ↔
      ∃ k < s.cfg.rows, s.now.framePos s.cfg + s.cfg.biasToLatch + 1 = s.cfg.lineStart k := by
  obtain ⟨-, -, hR, -, hN, hG, -⟩ := Params.bounds_of_valid hv
  have hzero := Params.lineStart_zero s.cfg
  have hsucc := Params.lineStart_succ s.cfg
  have early : s.now.framePos s.cfg + s.cfg.biasToLatch + 1 < s.cfg.lineStart 0 →
      ¬ ∃ k < s.cfg.rows, s.now.framePos s.cfg + s.cfg.biasToLatch + 1 = s.cfg.lineStart k := by
    rintro hlt ⟨k, -, hk⟩
    have := Params.lineStart_mono s.cfg (Nat.zero_le k)
    omega
  cases hP with
  | powerup h => exact absurd (by rw [h]) hne
  | init i hi h hd hp => exact iff_of_false (by simp [State.biasTrigger, h]) (early (by omega))
  | sendCmd k h hw hp | strobe k h hw hp | advance k h hw hp =>
    exact iff_of_false (by simp [State.biasTrigger, h]) (early (by omega))
  | streaming m hm hm' h hd hp => exact iff_of_false (by simp [State.biasTrigger, h, hd]) (early (by omega))
  | waiting l hl h hd hp =>
    have htrigger : s.biasTrigger = true ↔ l + s.cfg.biasToLatch + 1 = s.cfg.cmdToLineStart := by
      simp [State.biasTrigger, h, hd]
    have := hsucc 0
    rw [htrigger]
    refine ⟨fun ht => ⟨0, hR, by omega⟩, ?_⟩
    rintro ⟨k, -, hk⟩
    obtain rfl := eq_of_lineStart (k := 0) (.inl rfl) (by omega) hk
    omega
  | line k l hk hl h hd hp =>
    refine iff_of_false (by simp [State.biasTrigger, h]) ?_
    rintro ⟨j, -, hj⟩
    have := hsucc k
    have := hsucc (k + 1)
    obtain rfl := eq_of_lineStart (k := k + 1) (.inr (by rw [Nat.add_sub_cancel]; omega)) (by omega) hj
    omega
  | gap k l hk hl h hd hp =>
    have htrigger : s.biasTrigger = true ↔ l + s.cfg.biasToLatch + 1 = s.cfg.lineStartOffset := by
      simp [State.biasTrigger, h]
    have := hsucc k
    have := hsucc (k + 1)
    rw [htrigger]
    refine ⟨fun ht => ⟨k + 1, hk, by omega⟩, ?_⟩
    rintro ⟨j, -, hj⟩
    obtain rfl := eq_of_lineStart (k := k + 1) (.inr (by rw [Nat.add_sub_cancel]; omega)) (by omega) hj
    omega
  | between l hl h hd hp =>
    refine iff_of_false (by simp [State.biasTrigger, h]) ?_
    rintro ⟨j, hj, heq⟩
    have := Params.lineStart_mono s.cfg (show j ≤ s.cfg.rows - 1 by omega)
    omega

/-- Command word `k` is pushed 3k cycles after Init (R106 to R108). -/
theorem cmdPush_iff_position (hP : FramePlace s.cfg s.now) (hne : s.now.frame.state ≠ Fc.powerup) (w : CmdWord) :
    Rtl.cmdPush s = some w ↔
      ∃ k < 12, s.now.framePos s.cfg = s.cfg.initCycles + 3 * k ∧ s.cfg.cmdWord? k = some w := by
  have hzero := Params.lineStart_zero s.cfg
  have hpush : s.now.frame.state ≠ Fc.sendCmd → Rtl.cmdPush s ≠ some w := fun hs => by simp [cmdPush_of_ne hs]
  have late : s.cfg.initCycles + 36 ≤ s.now.framePos s.cfg →
      ¬ ∃ k < 12, s.now.framePos s.cfg = s.cfg.initCycles + 3 * k ∧ s.cfg.cmdWord? k = some w := by
    rintro hp ⟨k, hk, hpos, -⟩; omega
  cases hP with
  | powerup h => exact absurd (by rw [h]) hne
  | init i hi h hd hp => exact iff_of_false (hpush (by simp [h])) (by rintro ⟨k, -, hpos, -⟩; omega)
  | sendCmd k h hw hp =>
    have : Rtl.cmdPush s = s.cfg.cmdWord? k := by simp [Rtl.cmdPush, h]
    rw [this]
    refine ⟨fun hk => ⟨k, k.isLt, hp, hk⟩, ?_⟩
    rintro ⟨j, -, hpos, hj⟩
    obtain rfl : j = k := by omega
    exact hj
  | strobe k h hw hp | advance k h hw hp =>
    exact iff_of_false (hpush (by simp [h])) (by rintro ⟨j, -, hpos, -⟩; omega)
  | streaming m hm hm' h hd hp => exact iff_of_false (hpush (by simp [h])) (late (by omega))
  | waiting l hl h hd hp => exact iff_of_false (hpush (by simp [h])) (late (by omega))
  | line k l hk hl h hd hp =>
    have := Params.lineStart_mono s.cfg (Nat.zero_le k)
    exact iff_of_false (hpush (by simp [h])) (late (by omega))
  | gap k l hk hl h hd hp =>
    have := Params.lineStart_mono s.cfg (Nat.zero_le k)
    exact iff_of_false (hpush (by simp [h])) (late (by omega))
  | between l hl h hd hp =>
    have := Params.lineStart_mono s.cfg (Nat.zero_le (s.cfg.rows - 1))
    exact iff_of_false (hpush (by simp [h])) (late (by omega))

/-- `cmd_done` is 0 exactly in the 168 cycles after the first push (R118). -/
theorem cmdDone_iff_position (hP : FramePlace cfg r) (hne : r.frame.state ≠ Fc.powerup) :
    r.cmdDone = true ↔ r.framePos cfg ≤ cfg.initCycles ∨ cfg.initCycles + 169 ≤ r.framePos cfg := by
  have hzero := Params.lineStart_zero cfg
  cases hP with
  | powerup h => exact absurd (by rw [h]) hne
  | init i hi h hd hp => exact iff_of_true hd (by omega)
  | sendCmd k h hw hp | strobe k h hw hp | advance k h hw hp =>
    rw [hw.cmdDone_iff]; omega
  | streaming m hm hm' h hd hp => exact iff_of_false (by simp [hd]) (by omega)
  | waiting l hl h hd hp => exact iff_of_true hd (by omega)
  | line k l hk hl h hd hp | gap k l hk hl h hd hp =>
    have := Params.lineStart_mono cfg (Nat.zero_le k)
    exact iff_of_true hd (by omega)
  | between l hl h hd hp =>
    have := Params.lineStart_mono cfg (Nat.zero_le (cfg.rows - 1))
    exact iff_of_true hd (by omega)

/-- Settles O43: each event by the place of the FrameController. -/
theorem frameEventsByPosition : Obligations.FrameEventsByPosition := by
  intro s hv hI hS hne
  have hP := framePlace_of_ok hI.regs.frame hS
  exact ⟨latchEn_iff_position hP hne, biasTrigger_iff_position hv hP hne, cmdPush_iff_position hP hne,
    cmdDone_iff_position hP hne⟩

/-! ### The first frame -/

/-- `ready` rises in cycle P (R78). -/
theorem ready_iff_cycle (hOk : r.Ok cfg) (hT : r.OnTime cfg) : r.ready = true ↔ cfg.readyCycle ≤ r.cycle := by
  rw [ready_iff, ← elapsed_eq_readyCycle_iff hOk.power, hT.power, min_eq_left_iff]

/-- In the first frame the position is the number of cycles since Init started (R118). -/
theorem framePos_of_firstFrame (hT : r.OnTime cfg) (h : cfg.readyCycle < r.cycle)
    (h' : r.cycle < cfg.readyCycle + 1 + cfg.framePeriod) :
    r.frame.state ≠ Fc.powerup ∧ r.cycle = cfg.readyCycle + 1 + r.framePos cfg := by
  have hne : r.frame.state ≠ Fc.powerup := fun hs => by have := hT.powerup.1 hs; omega
  refine ⟨hne, ?_⟩
  rw [hT.frame hne, Nat.mod_eq_of_lt (by omega)]
  omega

/-- A line with nothing pending is idle at 0 (R80). -/
theorem serOut_of_done {w : Nat} {o : BitOrder} {x : Serializer w} (hx : x.Ok o) (hw : x.haveWord = false) :
    serOut o x [] = false := by
  obtain ⟨-, hsr⟩ := hx.clear hw
  simp only [serOut, hw, hsr]
  exact ext_zero o

/-- One cycle after the first push the first word waits in the queue to be loaded (R106, R82). -/
theorem first_load (hP : FramePlace cfg r) (hne : r.frame.state ≠ Fc.powerup)
    (hp : r.framePos cfg = cfg.initCycles + 1) : r.cmdSer.haveWord = false ∧ r.cmdQ.length = 1 := by
  have hzero := Params.lineStart_zero cfg
  cases hP with
  | strobe k h hw hp' =>
    obtain ⟨hq, -, hx⟩ := hw
    obtain hk : k.val = 0 := by omega
    rw [hk] at hq hx
    exact ⟨by simpa using hx, by omega⟩
  | powerup h => exact absurd (by rw [h]) hne
  | init i hi h hd hp' => omega
  | sendCmd k h hw hp' | advance k h hw hp' => omega
  | streaming m hm hm' h hd hp' => omega
  | waiting l hl h hd hp' => omega
  | line k l hk hl h hd hp' | gap k l hk hl h hd hp' =>
    have := Params.lineStart_mono cfg (Nat.zero_le k)
    omega
  | between l hl h hd hp' =>
    have := Params.lineStart_mono cfg (Nat.zero_le (cfg.rows - 1))
    omega

/-- At the position of the start of line 0 the FrameController is in the first cycle of row 0. -/
theorem first_line (hP : FramePlace cfg r) (hlatch : r.latchEn = true) (hp : r.framePos cfg = cfg.lineStart 0) :
    r.frame.lineCnt = 0 ∧ r.frame.rowCnt = 0 := by
  rw [Regs.latchEn, beq_iff_eq] at hlatch
  cases hP with
  | line k l hk hl h hd hp' =>
    rw [hp'] at hp
    obtain rfl : k = 0 := by
      by_contra hk0
      have := Params.lineStart_mono cfg (show 0 + 1 ≤ k by omega)
      have := Params.lineStart_succ cfg 0
      omega
    rw [h]
    exact ⟨by dsimp only; omega, rfl⟩
  | powerup h | init _ _ h | sendCmd _ h | strobe _ h | advance _ h | streaming _ _ _ h | waiting _ _ h
  | gap _ _ _ _ h | between _ _ h => simp [h] at hlatch

/-- Settles O44: in the first frame the position is the number of cycles since Init started, and the events follow
from the position. -/
theorem latenciesOfTheFirstFrame : Obligations.LatenciesOfTheFirstFrame := by
  intro s hv hI hrun hS hT
  obtain ⟨hR1, hcols, hR, -⟩ := Params.bounds_of_valid hv
  have hperiod := Params.framePeriod_eq s.cfg hR
  have hzero := Params.lineStart_zero s.cfg
  have hline := Params.lineStart_mono s.cfg (Nat.zero_le (s.cfg.rows - 1))
  have hL := Params.lineCycles_ge hv
  have hP := framePlace_of_ok hI.regs.frame hS
  obtain ⟨⟨hout, -⟩, -⟩ := serial_outputs (sensorRst_of_running hrun)
  have hboost : s.pins.enBoost = s.signals.ready := enBoost_eq_ready
  rw [signals_of_running hrun] at hboost ⊢
  rw [hout]
  dsimp only [Signals.running]
  refine ⟨ready_iff_cycle hI.regs hT, hboost, fun hc => ?_, fun hc => ?_, fun hc hc' => ?_, fun hc hc' => ?_,
    fun hc => ?_⟩
  · have hd : s.now.cmdDone = true := by
      by_cases hs : s.now.frame.state = Fc.powerup
      · exact hS.elsewhere (.inl hs)
      · have hlt := mt hT.powerup.2 hs
        obtain ⟨hne, hpos⟩ := framePos_of_firstFrame hT (by omega) (by omega)
        exact (cmdDone_iff_position hP hne).2 (by omega)
    obtain ⟨hx, hq⟩ := cmdDone_iff.1 hd
    exact ⟨hd, by rw [hq]; exact serOut_of_done hI.regs.cmdSer hx⟩
  · obtain ⟨hne, hpos⟩ := framePos_of_firstFrame hT (by omega) (by omega)
    obtain ⟨hx, hq⟩ := first_load hP hne (by omega)
    obtain ⟨w, hq⟩ := List.length_eq_one_iff.1 hq
    have hnd := mt (cmdDone_iff_position hP hne).1 (by omega)
    exact ⟨w, [], hx, hq, by simpa using hnd, by simp [serOut, hx, hq]⟩
  · obtain ⟨hne, hpos⟩ := framePos_of_firstFrame hT (by omega) (by omega)
    have hnd := mt (cmdDone_iff_position hP hne).1 (by omega)
    simpa using hnd
  · obtain ⟨hne, hpos⟩ := framePos_of_firstFrame hT (by omega) (by omega)
    have hnl := mt (latchEn_iff_position hP hne).1 (not_in_line_of_lt (by omega))
    exact ⟨(cmdDone_iff_position hP hne).2 (by omega), by simpa using hnl⟩
  · obtain ⟨hne, hpos⟩ := framePos_of_firstFrame hT (by omega) (by omega)
    have hl := (latchEn_iff_position hP hne).2 ⟨0, hR, by omega, by omega⟩
    exact ⟨hl, first_line hP hl (by omega)⟩

end Sys2Proof.Machine
end

section
/-! PROOF. Bursts keep their age (R118, R152): with enough time between the triggers, or in a frame of one line, no
trigger meets an active burst. -/

namespace Sys2Proof.Machine

variable {s t : State} {r : Regs} {cfg : Params}

/-! ### The age a burst must have, cycle by cycle -/

/-- What a sensor cycle makes of the age that the position asks of an active burst. -/
inductive BurstMove (s : State) : Prop where
  /-- The trigger: no burst may be active, or the last one is L + G cycles old in the next cycle. -/
  | start (ht : s.biasTrigger = true)
      (ha : ∀ p, s.now.frame.burstAge s.cfg = some p → p + 1 = s.cfg.lineCycles + s.cfg.lineStartOffset)
      (ha' : (Rtl.frame s).burstAge s.cfg = some 0)
  | idle (ht : s.biasTrigger = false) (ha : s.now.frame.burstAge s.cfg = none)
      (ha' : (Rtl.frame s).burstAge s.cfg = none)
  | older (p : Nat) (ht : s.biasTrigger = false) (ha : s.now.frame.burstAge s.cfg = some p)
      (ha' : (Rtl.frame s).burstAge s.cfg = some (p + 1))
  /-- The end of InterFrame, more than L + G cycles after the trigger of the last line. -/
  | frameOver (p : Nat) (ht : s.biasTrigger = false) (hp : s.cfg.lineCycles + s.cfg.lineStartOffset ≤ p)
      (ha : s.now.frame.burstAge s.cfg = some p) (ha' : (Rtl.frame s).burstAge s.cfg = none)

/-- The trigger of the wait for a further line (R111). -/
theorem biasTrigger_of_waitLine (h : s.now.frame.state = Fc.waitLine) :
    s.biasTrigger = decide (s.now.frame.lineCnt + s.cfg.biasToLatch + 1 = s.cfg.lineStartOffset) := by
  simp [State.biasTrigger, h, beq_eq_decide]

/-- The trigger of the wait for the first line (R109). -/
theorem biasTrigger_of_waitFrameStart (h : s.now.frame.state = Fc.waitFrameStart) (hd : s.now.cmdDone = true) :
    s.biasTrigger = decide (s.now.frame.lineCnt + s.cfg.biasToLatch + 1 = s.cfg.cmdToLineStart) := by
  simp [State.biasTrigger, h, hd, beq_eq_decide]

/-- In the wait between two lines, the burst of the line before, until the next trigger. -/
theorem burstAge_gap_of_lt {i l k : Nat} {c : Fin 12} (hl : l + cfg.biasToLatch < cfg.lineStartOffset) :
    Frame.burstAge cfg ⟨Fc.waitLine, i, c, l, k⟩ = some (cfg.biasToLatch + cfg.lineCycles + l) := by
  simp [Frame.burstAge, Nat.not_le.2 hl]

/-- In the wait between two lines, the burst of the next line, from its trigger on. -/
theorem burstAge_gap_of_le {i l k : Nat} {c : Fin 12} (hl : cfg.lineStartOffset ≤ l + cfg.biasToLatch) :
    Frame.burstAge cfg ⟨Fc.waitLine, i, c, l, k⟩ = some (l + cfg.biasToLatch - cfg.lineStartOffset) := by
  simp [Frame.burstAge, hl]

/-- In every sensor cycle the age moves on with the FrameController. -/
theorem burstMove_of_ok (hv : s.cfg.Valid) (hOk : s.now.Ok s.cfg) (hS : s.now.CmdSchedule) : BurstMove s := by
  obtain ⟨-, -, -, -, hN, hG, -⟩ := Params.bounds_of_valid hv
  have hL := Params.lineCycles_ge hv
  have hLG : s.cfg.interFrameCycles = s.cfg.lineCycles + s.cfg.lineStartOffset := rfl
  cases frameMove_of_ok hOk.frame with
  | powerupWait _ h h' | powerupEnd _ h h' | initCount _ _ h h' | initEnd _ _ h h' | send _ h h' | strobe _ h h'
  | nextWord _ _ _ h h' =>
    exact .idle (by simp [State.biasTrigger, h]) (by simp [Frame.burstAge, h]) (by simp [Frame.burstAge, h'])
  | lastWord h h' =>
    exact .idle (by simp [State.biasTrigger, h]) (by simp [Frame.burstAge, h])
      (by simp [Frame.burstAge, h']; omega)
  | startHold l hl hd h h' =>
    obtain ⟨hl0, -⟩ := hS.streaming (by rw [h]) hd
    obtain rfl : l = 0 := by rwa [h] at hl0
    exact .idle (by simp [State.biasTrigger, h, hd]) (by simp [Frame.burstAge, h]; omega)
      (by simp [Frame.burstAge, h']; omega)
  | startCount l hl hd h h' =>
    have ht := biasTrigger_of_waitFrameStart (by rw [h]) hd
    rw [h] at ht
    rcases Nat.lt_trichotomy (l + s.cfg.biasToLatch + 1) s.cfg.cmdToLineStart with hlt | heq | hgt
    · exact .idle (by simp [ht]; omega) (by simp [Frame.burstAge, h]; omega) (by simp [Frame.burstAge, h']; omega)
    · exact .start (by simp [ht, heq]) (by simp [Frame.burstAge, h]; omega) (by simp [Frame.burstAge, h']; omega)
    · exact .older (l + s.cfg.biasToLatch - s.cfg.cmdToLineStart) (by simp [ht]; omega)
        (by simp [Frame.burstAge, h]; omega) (by simp [Frame.burstAge, h']; omega)
  | startEnd l hl hd h h' =>
    have ht := biasTrigger_of_waitFrameStart (by rw [h]) hd
    rw [h] at ht
    rcases Nat.eq_zero_or_pos s.cfg.biasToLatch with heq | hgt
    · exact .start (by simp [ht]; omega) (by simp [Frame.burstAge, h]; omega) (by simp [Frame.burstAge, h', heq])
    · exact .older (s.cfg.biasToLatch - 1) (by simp [ht]; omega)
        (by simp [Frame.burstAge, h]; omega) (by simp [Frame.burstAge, h']; omega)
  | lineCount l k hl hk h h' =>
    exact .older (s.cfg.biasToLatch + l) (by simp [State.biasTrigger, h]) (by simp [Frame.burstAge, h])
      (by simp [Frame.burstAge, h']; omega)
  | lineEnd l k hl hk h h' =>
    refine .older (s.cfg.biasToLatch + l) (by simp [State.biasTrigger, h]) (by simp [Frame.burstAge, h]) ?_
    rw [h', burstAge_gap_of_lt (by omega), Option.some.injEq]
    omega
  | lastLineEnd l k hl hk h h' =>
    exact .older (s.cfg.biasToLatch + l) (by simp [State.biasTrigger, h]) (by simp [Frame.burstAge, h])
      (by simp [Frame.burstAge, h']; omega)
  | gapCount l k hl hk h h' =>
    have ht := biasTrigger_of_waitLine (s := s) (by rw [h])
    rw [h] at ht
    rcases Nat.lt_trichotomy (l + s.cfg.biasToLatch + 1) s.cfg.lineStartOffset with hlt | heq | hgt
    · refine .older _ (by simp [ht]; omega) (h ▸ burstAge_gap_of_lt (by omega)) ?_
      rw [h', burstAge_gap_of_lt (by omega), ← Nat.add_assoc]
    · refine .start (by simp [ht, heq]) (fun p hp => ?_) ?_
      · rw [h, burstAge_gap_of_lt (by omega), Option.some.injEq] at hp
        omega
      · rw [h', burstAge_gap_of_le (by omega), Option.some.injEq]
        omega
    · refine .older _ (by simp [ht]; omega) (h ▸ burstAge_gap_of_le (by omega)) ?_
      rw [h', burstAge_gap_of_le (by omega), Option.some.injEq]
      omega
  | gapEnd l k hl hk h h' =>
    have ht := biasTrigger_of_waitLine (s := s) (by rw [h])
    rw [h] at ht
    rcases Nat.eq_zero_or_pos s.cfg.biasToLatch with heq | hgt
    · refine .start (by simp [ht]; omega) (fun p hp => ?_) (by simp [Frame.burstAge, h', heq])
      rw [h, burstAge_gap_of_lt (by omega), Option.some.injEq] at hp
      omega
    · refine .older _ (by simp [ht]; omega) (h ▸ burstAge_gap_of_le (by omega)) ?_
      simp [Frame.burstAge, h']; omega
  | betweenCount l hl h h' =>
    exact .older (s.cfg.biasToLatch + s.cfg.lineCycles + l) (by simp [State.biasTrigger, h])
      (by simp [Frame.burstAge, h]) (by simp [Frame.burstAge, h']; omega)
  | betweenEnd l hl h h' =>
    exact .frameOver (s.cfg.biasToLatch + s.cfg.lineCycles + l) (by simp [State.biasTrigger, h]) (by omega)
      (by simp [Frame.burstAge, h]) (by simp [Frame.burstAge, h'])

/-! ### The bias registers -/

/-- A burst goes on by one cycle of age, or ends with its last strobe at age 2n - 1 (R114, R115). -/
theorem injector_of_active (ha : s.now.inj.active = true) :
    (s.now.inj.age + 1 = 2 * s.cfg.biasWrites ∧ Rtl.injector s = Injector.reset) ∨
    (s.now.inj.age + 1 ≠ 2 * s.cfg.biasWrites ∧ (Rtl.injector s).active = true ∧
      (Rtl.injector s).age = s.now.inj.age + 1) := by
  cases hp : s.now.inj.phase with
  | false =>
    refine .inr ⟨?_, by simp [Rtl.injector, ha, hp], by simp [Rtl.injector, ha, hp, Injector.age]⟩
    simp only [Injector.age, hp, Bool.toNat_false]; omega
  | true =>
    by_cases hlast : s.now.inj.cnt + 1 = s.cfg.biasWrites
    · refine .inl ⟨?_, by simp [Rtl.injector, ha, hp, hlast]; rfl⟩
      simp only [Injector.age, hp, Bool.toNat_true]; omega
    · refine .inr ⟨?_, by simp [Rtl.injector, ha, hp, hlast], ?_⟩
      · simp only [Injector.age, hp, Bool.toNat_true]; omega
      · simp [Rtl.injector, ha, hp, hlast, Injector.age]; omega

/-- The trigger starts a burst of age 0 (R116). -/
theorem injector_of_trigger (ha : s.now.inj.active = false) (ht : s.biasTrigger = true) :
    (Rtl.injector s).active = true ∧ (Rtl.injector s).age = 0 := by
  simp [Rtl.injector, ha, ht, Injector.age]

/-- An active burst is younger than 2n cycles. -/
theorem Injector.Ok.age_lt {j : Injector} (h : j.Ok cfg) (ha : j.active = true) : j.age < 2 * cfg.biasWrites := by
  have hcnt : j.cnt < cfg.biasWrites := by simpa [Injector.Ok, ha] using h
  have := Bool.toNat_le j.phase
  simp only [Injector.age]; omega

/-! ### With 2n + 1 <= L + G -/

/-- The trigger meets no active burst: the last one would be L + G cycles old in the next cycle. -/
theorem Regs.BiasSchedule.not_active_of_trigger (hv : s.cfg.Valid) (hOk : s.now.Ok s.cfg) (hS : s.now.CmdSchedule)
    (hB : s.now.BiasSchedule s.cfg) (hn : 2 * s.cfg.biasWrites + 1 ≤ s.cfg.lineCycles + s.cfg.lineStartOffset)
    (ht : s.biasTrigger = true) : s.now.inj.active = false := by
  by_contra ha
  rw [Bool.not_eq_false] at ha
  have hage := hOk.inj.age_lt ha
  cases burstMove_of_ok hv hOk hS with
  | start _ hstart _ =>
    have := hstart _ (hB ha)
    omega
  | idle ht' | older _ ht' | frameOver _ ht' => rw [ht] at ht'; cases ht'

/-- A sensor cycle keeps the ages of the bursts. -/
theorem Regs.BiasSchedule.rtl (hv : s.cfg.Valid) (hOk : s.now.Ok s.cfg) (hS : s.now.CmdSchedule)
    (hB : s.now.BiasSchedule s.cfg) (hn : 2 * s.cfg.biasWrites + 1 ≤ s.cfg.lineCycles + s.cfg.lineStartOffset) :
    (Rtl.regs s).BiasSchedule s.cfg := by
  intro ha'
  have hinj : (Rtl.regs s).inj = Rtl.injector s := rfl
  have hframe : (Rtl.regs s).frame = Rtl.frame s := rfl
  rw [hinj] at ha' ⊢
  rw [hframe]
  cases ha : s.now.inj.active with
  | true =>
    have hage := hOk.inj.age_lt ha
    have hpos := hB ha
    rcases injector_of_active ha with ⟨-, hend⟩ | ⟨-, -, hage'⟩
    · rw [hend] at ha'; cases ha'
    · rw [hage']
      cases burstMove_of_ok hv hOk hS with
      | start ht _ _ =>
        rw [hB.not_active_of_trigger hv hOk hS hn ht] at ha; cases ha
      | idle _ hnone _ => rw [hnone] at hpos; cases hpos
      | older p _ hp hp' =>
        rw [hpos] at hp; cases hp
        exact hp'
      | frameOver p _ hlate hp _ =>
        rw [hpos] at hp; cases hp
        omega
  | false =>
    cases ht : s.biasTrigger with
    | false => rw [injector_of_idle ha ht, ha] at ha'; cases ha'
    | true =>
      rw [(injector_of_trigger ha ht).2]
      cases burstMove_of_ok hv hOk hS with
      | start _ _ hstart => exact hstart
      | idle ht' | older _ ht' | frameOver _ ht' => rw [ht] at ht'; cases ht'

/-! ### With one line in a frame and 2n + 1 <= T -/

/-- With one line in a frame the trigger comes B cycles before it, in the wait for the frame's start. -/
theorem framePos_of_trigger (hv : s.cfg.Valid) (hOk : s.now.Ok s.cfg) (hS : s.now.CmdSchedule) (hR : s.cfg.rows = 1)
    (ht : s.biasTrigger = true) : s.now.frame.state ≠ Fc.powerup ∧
      s.now.framePos s.cfg + 1 = s.cfg.lineStart 0 - s.cfg.biasToLatch := by
  have hne : s.now.frame.state ≠ Fc.powerup := by
    rcases waits_of_biasTrigger ht with ⟨hs, -⟩ | hs <;> rw [hs] <;> decide
  obtain ⟨k, hk, hpos⟩ := (biasTrigger_iff_position hv (framePlace_of_ok hOk.frame hS) hne).1 ht
  obtain rfl : k = 0 := by omega
  exact ⟨hne, by omega⟩

/-- The trigger meets no active burst: the last one would be T cycles old in the next cycle. -/
theorem Regs.BiasScheduleOneRow.not_active_of_trigger (hv : s.cfg.Valid) (hOk : s.now.Ok s.cfg)
    (hS : s.now.CmdSchedule) (hB : s.now.BiasScheduleOneRow s.cfg) (hR : s.cfg.rows = 1)
    (hn : 2 * s.cfg.biasWrites + 1 ≤ s.cfg.framePeriod) (ht : s.biasTrigger = true) : s.now.inj.active = false := by
  by_contra ha
  rw [Bool.not_eq_false] at ha
  have hage := hOk.inj.age_lt ha
  obtain ⟨-, hpos⟩ := framePos_of_trigger hv hOk hS hR ht
  rw [(hB ha).2, show s.now.framePos s.cfg + s.cfg.framePeriod - (s.cfg.lineStart 0 - s.cfg.biasToLatch)
    = s.cfg.framePeriod - 1 by omega, Nat.mod_eq_of_lt (by omega)] at hage
  omega

/-- The cycles since position `c` of a frame of `T` cycles, one cycle on. -/
theorem cycles_since_succ {c T : Nat} (x : Nat) (hc : c ≤ T) :
    ((x + 1) % T + T - c) % T = ((x + T - c) % T + 1) % T := by
  rw [Nat.add_sub_assoc hc, Nat.add_sub_assoc hc, Nat.mod_add_mod, Nat.mod_add_mod, Nat.add_right_comm]

/-- A sensor cycle keeps the ages of the bursts, counted around the frame. -/
theorem Regs.BiasScheduleOneRow.rtl (hv : s.cfg.Valid) (hOk : s.now.Ok s.cfg) (hS : s.now.CmdSchedule)
    (hB : s.now.BiasScheduleOneRow s.cfg) (hR : s.cfg.rows = 1)
    (hn : 2 * s.cfg.biasWrites + 1 ≤ s.cfg.framePeriod) : (Rtl.regs s).BiasScheduleOneRow s.cfg := by
  intro ha'
  have hinj : (Rtl.regs s).inj = Rtl.injector s := rfl
  have hframe : (Rtl.regs s).frame = Rtl.frame s := rfl
  have hfirst : s.cfg.lineStart 0 ≤ s.cfg.framePeriod := by
    have := Params.framePeriod_eq s.cfg (by omega)
    have := Params.lineStart_mono s.cfg (Nat.zero_le (s.cfg.rows - 1))
    omega
  rw [hinj] at ha' ⊢
  rw [hframe]
  cases ha : s.now.inj.active with
  | true =>
    have hage := hOk.inj.age_lt ha
    obtain ⟨hne, hpos⟩ := hB ha
    refine ⟨fcState_ne_powerup hne, ?_⟩
    rcases injector_of_active ha with ⟨-, hend⟩ | ⟨-, -, hage'⟩
    · rw [hend] at ha'; cases ha'
    · rw [hage', framePos_rtl_mod hv hOk hS hne, cycles_since_succ _ (by omega), ← hpos, Nat.mod_eq_of_lt (by omega)]
  | false =>
    cases ht : s.biasTrigger with
    | false => rw [injector_of_idle ha ht, ha] at ha'; cases ha'
    | true =>
      obtain ⟨hne, hpos⟩ := framePos_of_trigger hv hOk hS hR ht
      refine ⟨fcState_ne_powerup hne, ?_⟩
      rw [(injector_of_trigger ha ht).2, framePos_rtl_mod hv hOk hS hne, cycles_since_succ _ (by omega),
        show s.now.framePos s.cfg + s.cfg.framePeriod - (s.cfg.lineStart 0 - s.cfg.biasToLatch)
          = s.cfg.framePeriod - 1 by omega, Nat.mod_add_mod, Nat.sub_add_cancel (by omega), Nat.mod_self]

/-! ### Every step -/

/-- A fault of the bias trigger meets an active burst. -/
theorem biasRetrigger_of_step (h : step s = .next t) (hs : s.now.fault = none) {f : FaultRecord}
    (hf : t.now.fault = some f) (hcode : f.code = .biasRetrigger) :
    s.biasTrigger = true ∧ s.now.inj.active = true := by
  obtain ⟨-, hfault⟩ := fault_of_step h hs hf
  rcases fault_cause hfault with ⟨hc, -⟩ | ⟨-, hcause⟩ | ⟨hc, -⟩ | ⟨hc, -⟩
  · rw [hcode] at hc; cases hc
  · exact hcause
  · rw [hcode] at hc; cases hc
  · rw [hcode] at hc; cases hc

/-- At reset no burst is active. -/
theorem Regs.BiasSchedule.reset (cfg : Params) : Regs.reset.BiasSchedule cfg := nofun

/-- At reset no burst is active. -/
theorem Regs.BiasScheduleOneRow.reset (cfg : Params) : Regs.reset.BiasScheduleOneRow cfg := nofun

/-- Settles O40: a sensor cycle keeps the ages, no other step changes them, and at a trigger the age an active burst
would have is too great for one. -/
theorem burstsKeepTheirAge : Obligations.BurstsKeepTheirAge := by
  refine ⟨fun s t hI hS hB hn h => ?_, fun s t hI hS hB hR hn h => ?_⟩ <;> obtain ⟨hv, hcfg, -⟩ := step_inv h
  · refine ⟨?_, fun hs f hf hcode => ?_⟩
    · rw [hcfg]
      exact keeps_of_rtl (P := (·.BiasSchedule s.cfg)) hI.regs h (.reset _) (fun _ _ _ _ _ h => h)
        (fun _ _ => hB.rtl hv hI.regs hS hn) hB
    · obtain ⟨ht, ha⟩ := biasRetrigger_of_step h hs hf hcode
      rw [hB.not_active_of_trigger hv hI.regs hS hn ht] at ha
      cases ha
  · refine ⟨?_, fun hs f hf hcode => ?_⟩
    · rw [hcfg]
      exact keeps_of_rtl (P := (·.BiasScheduleOneRow s.cfg)) hI.regs h (.reset _) (fun _ _ _ _ _ h => h)
        (fun _ _ => hB.rtl hv hI.regs hS hR hn) hB
    · obtain ⟨ht, ha⟩ := biasRetrigger_of_step h hs hf hcode
      rw [hB.not_active_of_trigger hv hI.regs hS hR hn ht] at ha
      cases ha

end Sys2Proof.Machine
end

section
/-! PROOF. The bias stream keeps its position (R151): the words of a burst leave before the next burst, and the queue
between them never holds more than the stated depth. -/

namespace Sys2Proof.Machine

variable {s t : State} {r : Regs} {cfg : Params}

/-! ### The stream of a burst -/

/-- A burst pushes its words in its even cycles (R114, R151). -/
theorem biasPush_length {p : Nat} (hact : s.now.inj.active = true ↔ p < 2 * s.cfg.biasWrites)
    (hage : s.now.inj.active = true → s.now.inj.age = p) :
    ((p < 2 * s.cfg.biasWrites ∧ p % 2 = 0) ∧ (Rtl.biasPush s).toList.length = 1) ∨
      (¬ (p < 2 * s.cfg.biasWrites ∧ p % 2 = 0) ∧ (Rtl.biasPush s).toList.length = 0) := by
  cases ha : s.now.inj.active with
  | false =>
    have : ¬ p < 2 * s.cfg.biasWrites := by rw [← hact, ha]; decide
    simp [Rtl.biasPush, ha, this]
  | true =>
    have hlt := hact.1 ha
    have hp := hage ha
    cases hph : s.now.inj.phase with
    | false =>
      have : p % 2 = 0 := by simp only [Injector.age, hph, Bool.toNat_false] at hp; omega
      simp [Rtl.biasPush, ha, hph, hlt, this]
    | true =>
      have : p % 2 = 1 := by simp only [Injector.age, hph, Bool.toNat_true] at hp; omega
      simp [Rtl.biasPush, ha, hph, this]

/-- Where the serializer is in a burst's stream: before its first load, in word `(p - 1) / 7`, or after the last. -/
theorem Regs.biasStreamAt.phases {n p : Nat} (h : r.biasStreamAt n p) :
    (p = 0 ∧ (r.biasSer.bitcnt = 0 ∨ r.biasSer.bitcnt = 6)) ∨
    (1 ≤ p ∧ p ≤ 7 * n ∧ r.biasSer.bitcnt = (p - 1) % 7) ∨ (7 * n < p ∧ r.biasSer.bitcnt = 0) := by
  obtain ⟨-, -, hb⟩ := h
  split at hb
  next hp => exact .inl ⟨hp, hb⟩
  next hp =>
    split at hb
    next hle => exact .inr (.inl ⟨Nat.pos_of_ne_zero hp, hle, hb⟩)
    next hlt => exact .inr (.inr ⟨not_le.1 hlt, hb⟩)

/-- The bit of the next cycle, of a stream that goes on. -/
theorem biasStreamAt_succ_of {n p : Nat} (hq : r.biasQ.length + min n ((p + 6) / 7) = min n ((p + 2) / 2))
    (hx : r.biasSer.haveWord = true ↔ r.biasSer.bitcnt ≠ 0)
    (hb : (p < 7 * n → r.biasSer.bitcnt = p % 7) ∧ (7 * n ≤ p → r.biasSer.bitcnt = 0)) : r.biasStreamAt n (p + 1) := by
  refine ⟨hq, hx, ?_⟩
  rw [if_neg (Nat.succ_ne_zero p), Nat.add_sub_cancel]
  split <;> omega

/-- The stream of a burst goes on by one cycle: every word is there when the serializer is free for it (R151). -/
theorem Regs.biasStreamAt.rtl {p : Nat} (hn : 1 ≤ s.cfg.biasWrites) (h : s.now.biasStreamAt s.cfg.biasWrites p)
    (hact : s.now.inj.active = true ↔ p < 2 * s.cfg.biasWrites)
    (hage : s.now.inj.active = true → s.now.inj.age = p) :
    (Rtl.regs s).biasStreamAt s.cfg.biasWrites (p + 1) := by
  have hpush := biasPush_length hact hage
  have hphase := h.phases
  obtain ⟨hq, hx, -⟩ := h
  by_cases hb0 : s.now.biasSer.bitcnt = 0
  · have hx0 : s.now.biasSer.haveWord = false := by simpa [hb0] using hx
    rcases Nat.eq_zero_or_pos s.now.biasQ.length with hq0 | hq0
    · obtain ⟨hser, hqueue⟩ := serializer_idle (o := s.cfg.biasBitOrder) hx0 hq0 (Rtl.biasPush s)
      refine biasStreamAt_succ_of ?_ ?_ ?_ <;> simp only [Rtl.regs, hser, hqueue]
      · omega
      · exact hx
      · omega
    · obtain ⟨hx', hb', hq'⟩ := serializer_load (o := s.cfg.biasBitOrder) hx0 hq0 (Rtl.biasPush s)
      refine biasStreamAt_succ_of ?_ ?_ ?_ <;> simp only [Rtl.regs, hx', hb']
      · omega
      · decide
      · omega
  · obtain ⟨hx', hb', hq'⟩ := serializer_busy (o := s.cfg.biasBitOrder) (q := s.now.biasQ) (hx.2 hb0) (Rtl.biasPush s)
    have hload : (p + 6) / 7 = (p + 5) / 7 := by omega
    refine biasStreamAt_succ_of ?_ ?_ ?_ <;> simp only [Rtl.regs, hx', hb']
    · omega
    · split <;> omega
    · split <;> omega

/-- After 7n cycles of a burst of n writes everything has been sent but perhaps the last bit, so the next burst may
begin. -/
theorem Regs.biasStreamAt.restart {n p : Nat} (h : r.biasStreamAt n p) (hn : 1 ≤ n) (hp : 7 * n ≤ p) :
    r.biasStreamAt n 0 := by
  have hphase := h.phases
  obtain ⟨hq, hx, -⟩ := h
  refine ⟨by omega, hx, ?_⟩
  rw [if_pos rfl]; omega

/-- After more than 7n cycles nothing is pending. -/
theorem Regs.biasStreamAt.biasDone {n p : Nat} (h : r.biasStreamAt n p) (hn : 1 ≤ n) (hp : 7 * n < p) :
    r.biasDone = true := by
  have hphase := h.phases
  obtain ⟨hq, hx, -⟩ := h
  refine biasDone_iff.2 ⟨?_, List.length_eq_zero_iff.1 (by omega)⟩
  rw [← Bool.not_eq_true, hx]; omega

/-- Without a burst, nothing pending stays so. -/
theorem biasSer_rtl_of_done (hd : s.now.biasDone = true) (ha : s.now.inj.active = false) :
    (Rtl.regs s).biasSer = s.now.biasSer ∧ (Rtl.regs s).biasQ = [] := by
  obtain ⟨hx, hq⟩ := biasDone_iff.1 hd
  have hlen : s.now.biasQ.length = 0 := by rw [hq]; rfl
  obtain ⟨hser, hqueue⟩ := serializer_idle (o := s.cfg.biasBitOrder) hx hlen (Rtl.biasPush s)
  exact ⟨hser, hqueue.trans (by simp [Rtl.biasPush, ha])⟩

/-! ### Every sensor cycle -/

/-- Without a trigger a burst of 2n cycles grows one cycle older, or has ended. -/
theorem burst_older {p : Nat} (ht : s.biasTrigger = false) (hact : s.now.inj.active = true ↔ p < 2 * s.cfg.biasWrites)
    (hage : s.now.inj.active = true → s.now.inj.age = p) :
    ((Rtl.injector s).active = true ↔ p + 1 < 2 * s.cfg.biasWrites) ∧
      ((Rtl.injector s).active = true → (Rtl.injector s).age = p + 1) := by
  cases ha : s.now.inj.active with
  | false =>
    have := mt hact.2 (by simp [ha])
    rw [injector_of_idle ha ht, ha]
    exact ⟨iff_of_false (by decide) (by omega), nofun⟩
  | true =>
    have hlt := hact.1 ha
    have hp := hage ha
    rcases injector_of_active ha with ⟨hend, hreset⟩ | ⟨hgo, hon, hage'⟩
    · rw [hreset]
      exact ⟨iff_of_false (by decide) (by omega), nofun⟩
    · rw [hon, hage', hp]
      exact ⟨iff_of_true rfl (by omega), fun _ => rfl⟩

/-- A sensor cycle keeps the position of the bias stream. -/
theorem Regs.BiasStream.rtl (hv : s.cfg.Valid) (hOk : s.now.Ok s.cfg) (hS : s.now.CmdSchedule)
    (hB : s.now.BiasStream s.cfg) (hlong : 7 * s.cfg.biasWrites ≤ s.cfg.lineCycles + s.cfg.lineStartOffset) :
    (Rtl.regs s).BiasStream s.cfg := by
  obtain ⟨-, -, -, hn, -⟩ := Params.bounds_of_valid hv
  have hinj : (Rtl.regs s).inj = Rtl.injector s := rfl
  have hframe : (Rtl.regs s).frame = Rtl.frame s := rfl
  cases burstMove_of_ok hv hOk hS with
  | idle ht ha ha' =>
    obtain ⟨hoff, hd⟩ := hB.idle ha
    obtain ⟨hser, hq⟩ := biasSer_rtl_of_done hd hoff
    refine ⟨fun p hp => ?_, fun _ => ⟨?_, biasDone_iff.2 ⟨?_, hq⟩⟩⟩
    · rw [hframe, ha'] at hp; cases hp
    · rw [hinj, injector_of_idle hoff ht, hoff]
    · rw [hser]; exact (biasDone_iff.1 hd).1
  | start ht ha ha' =>
    have hstart : s.now.inj.active = false ∧ (Rtl.regs s).biasStreamAt s.cfg.biasWrites 0 := by
      cases hage : s.now.frame.burstAge s.cfg with
      | none =>
        obtain ⟨hoff, hd⟩ := hB.idle hage
        obtain ⟨hser, hq⟩ := biasSer_rtl_of_done hd hoff
        obtain ⟨hx, -⟩ := biasDone_iff.1 hd
        obtain ⟨hb, -⟩ := hOk.biasSer.clear hx
        exact ⟨hoff, by simp [hq], by simp [hser, hx, hb], by simp [hser, hb]⟩
      | some p =>
        have hp := ha p hage
        obtain ⟨hact, hold, hstream⟩ := hB.burst p hage
        have hoff : s.now.inj.active = false := by
          rw [← Bool.not_eq_true, hact]; omega
        exact ⟨hoff, (hstream.rtl hn hact hold).restart hn (by omega)⟩
    obtain ⟨hon, hage⟩ := injector_of_trigger hstart.1 ht
    refine ⟨fun p hp => ?_, fun hnone => ?_⟩
    · rw [hframe, ha'] at hp; cases hp
      rw [hinj, hage, hon]
      exact ⟨iff_of_true rfl (by omega), fun _ => rfl, hstart.2⟩
    · rw [hframe, ha'] at hnone; cases hnone
  | older p ht ha ha' =>
    obtain ⟨hact, hold, hstream⟩ := hB.burst p ha
    refine ⟨fun p' hp => ?_, fun hnone => ?_⟩
    · rw [hframe, ha'] at hp; cases hp
      obtain ⟨hact', hold'⟩ := burst_older ht hact hold
      exact ⟨hact', hold', hstream.rtl hn hact hold⟩
    · rw [hframe, ha'] at hnone; cases hnone
  | frameOver p ht hp ha ha' =>
    obtain ⟨hact, hold, hstream⟩ := hB.burst p ha
    have hoff : s.now.inj.active = false := by
      rw [← Bool.not_eq_true, hact]; omega
    refine ⟨fun p hp => ?_, fun _ => ⟨?_, (hstream.rtl hn hact hold).biasDone hn (by omega)⟩⟩
    · rw [hframe, ha'] at hp; cases hp
    · rw [hinj, injector_of_idle hoff ht, hoff]

/-! ### The depth of the bias queue -/

/-- A fault of the bias queue is met by a write into a full queue. -/
theorem biasQueueOverflow_of_step (h : step s = .next t) (hs : s.now.fault = none) {f : FaultRecord}
    (hf : t.now.fault = some f) (hcode : f.code = .biasQueueOverflow) :
    s.now.inj.active = true ∧ s.now.inj.phase = false ∧ s.cfg.biasQDepth ≤ s.now.biasQ.length := by
  obtain ⟨-, hfault⟩ := fault_of_step h hs hf
  rcases fault_cause hfault with ⟨hc, -⟩ | ⟨hc, -⟩ | ⟨hc, -⟩ | ⟨-, hcause⟩
  · rw [hcode] at hc; cases hc
  · rw [hcode] at hc; cases hc
  · rw [hcode] at hc; cases hc
  · exact hcause

/-- At write `k` of a burst `k` words less those loaded are queued (R151). -/
theorem Regs.BiasStream.length_biasQ (hB : r.BiasStream cfg) (ha : r.inj.active = true) (hp : r.inj.phase = false) :
    r.inj.cnt < cfg.biasWrites ∧ r.biasQ.length + (2 * r.inj.cnt + 5) / 7 = r.inj.cnt := by
  cases hage : r.frame.burstAge cfg with
  | none => rw [(hB.idle hage).1] at ha; cases ha
  | some p =>
    obtain ⟨hact, hold, hq, -⟩ := hB.burst p hage
    have hlt := hact.1 ha
    have hcnt := hold ha
    simp only [Injector.age, hp, Bool.toNat_false] at hcnt
    omega

/-- At reset nothing is pending. -/
theorem Regs.BiasStream.reset (cfg : Params) : Regs.reset.BiasStream cfg := ⟨nofun, fun _ => ⟨rfl, rfl⟩⟩

/-- Settles O41: a sensor cycle keeps the stream's position, no other step changes it, and the words queued at a
write are most at the last one. -/
theorem biasStreamIsKept : Obligations.BiasStreamIsKept := by
  intro s t hI hS hB hlong h
  obtain ⟨hv, hcfg, -⟩ := step_inv h
  refine ⟨?_, fun hdepth hs f hf hcode => ?_⟩
  · rw [hcfg]
    exact keeps_of_rtl (P := (·.BiasStream s.cfg)) hI.regs h (.reset _) (fun _ _ _ _ _ h => ⟨h.burst, h.idle⟩)
      (fun _ _ => hB.rtl hv hI.regs hS hlong) hB
  · obtain ⟨ha, hp, hfull⟩ := biasQueueOverflow_of_step h hs hf hcode
    obtain ⟨hcnt, hq⟩ := hB.length_biasQ ha hp
    split at hdepth <;> omega

end Sys2Proof.Machine
end

section
/-! PROOF. Decoding is the operation map: match and mask of each row, one row for each value (R62 to R66). -/

namespace Sys2Proof

/-! ### The rows of a format -/

/-- A row of the table stands under its own format. -/
theorem Format.mem_operations_iff {i : Instr} {f : Format} : i ∈ f.operations ↔ i.format = f := by
  refine ⟨fun h => ?_, Machine.mem_operations⟩
  cases f <;> simp only [Format.operations, List.mem_cons, List.not_mem_nil, or_false] at h <;>
    rcases h with rfl | rfl | rfl | rfl | rfl | rfl | rfl | rfl | rfl <;> rfl

/-- Two rows that one value matches agree in every bit both masks keep. -/
theorem Instr.agree_of_applies {i j : Instr} {sel : Byte} (hi : i.applies sel = true) (hj : j.applies sel = true) :
    i.pattern.mask &&& j.pattern.mask &&& (i.pattern.value ^^^ j.pattern.value) = 0 := by
  rw [Instr.applies, beq_iff_eq] at hi hj
  rw [← hi, ← hj]
  ext k hk
  simp only [BitVec.getElem_and, BitVec.getElem_xor]
  cases i.pattern.mask[k] <;> cases j.pattern.mask[k] <;> simp

/-- Different rows of a format differ in a bit both masks keep. -/
theorem Format.rows_differ (f : Format) : ∀ i ∈ f.operations, ∀ j ∈ f.operations,
    i.pattern.mask &&& j.pattern.mask &&& (i.pattern.value ^^^ j.pattern.value) = 0 → i = j := by
  cases f with
  | selSer x => cases x <;> decide
  | selFc | selSensor | selPs | selDes | selEmit | selBias | selHost | event => decide

/-- The row a value matches is the one found. -/
theorem Format.find?_eq_some_iff {f : Format} {sel : Byte} {i : Instr} :
    f.operations.find? (fun j => j.applies sel) = some i ↔ i.format = f ∧ i.applies sel = true := by
  refine ⟨fun h => ⟨mem_operations_iff.1 (List.mem_of_find?_eq_some h),
    List.find?_some (p := fun j : Instr => j.applies sel) h⟩, ?_⟩
  rintro ⟨hf, ha⟩
  have hi := mem_operations_iff.2 hf
  cases hj : f.operations.find? (fun j => j.applies sel) with
  | none => exact absurd ha (List.find?_eq_none.1 hj i hi)
  | some j =>
    exact congrArg some (f.rows_differ j (List.mem_of_find?_eq_some hj) i hi
      (Instr.agree_of_applies (List.find?_some (p := fun j : Instr => j.applies sel) hj) ha))

/-! ### Decoding -/

/-- A selector word names an operation exactly when it fits its format and matches the operation's row. -/
theorem decodeSel_eq_ok_iff {w : SelWord} {i : Instr} :
    decodeSel w = .ok i ↔ w.WellFormed ∧ i.format = w.format ∧ w.sel &&& i.pattern.mask = i.pattern.value := by
  have hrow : w.sel &&& i.pattern.mask = i.pattern.value ↔ i.applies w.sel = true := by
    rw [Instr.applies, beq_iff_eq]
  rw [hrow, ← Format.find?_eq_some_iff, decodeSel]
  split
  next hw => cases w.format.operations.find? (fun j => j.applies w.sel) <;> simp [hw]
  next hw => simp [hw]

/-- Its bytes decode to what it names. -/
theorem decode_bytes_eq_ok_iff {w : SelWord} {rest rest' : List Byte} {i : Instr} :
    decode (w.bytes ++ rest) = .ok (i, rest') ↔ decodeSel w = .ok i ∧ rest' = rest := by
  rw [decode_bytes]
  cases decodeSel w <;> simp [eq_comm]

/-- Its bytes are rejected as it is. -/
theorem decode_bytes_of_error {w : SelWord} {e : Reject} (h : decodeSel w = .error e) (rest : List Byte) :
    decode (w.bytes ++ rest) = .error e := by
  rw [decode_bytes, h]

/-- Settles O1: the bytes decode as the word does, and the word names the one row it matches. -/
theorem decodeFollowsTheOperationMap : Obligations.DecodeFollowsTheOperationMap := by
  intro w rest rest' i
  rw [decode_bytes_eq_ok_iff, decodeSel_eq_ok_iff, and_assoc, and_assoc]

/-! ### Every selector value -/

/-- A byte below 16 is one of 16 values. -/
theorem Byte.forall_lt {P : Byte → Prop} {n : Nat} (h : ∀ k < n, P (BitVec.ofNat 8 k)) (b : Byte) (hb : b.toNat < n) :
    P b := by
  simpa using h b.toNat hb

/-- In a format of more than one bit every value that fits matches a row, but for `sel_fc` 9 .. 15 (R66). -/
theorem Format.find?_isSome {f : Format} (hs : f ≠ .selSensor) (he : f ≠ .event) {sel : Byte}
    (hw : sel.toNat < 2 ^ f.width) (hfc : ¬ (f = .selFc ∧ 9 ≤ sel.toNat)) :
    (f.operations.find? (fun j => j.applies sel)).isSome = true := by
  have small {n : Nat} := Byte.forall_lt (n := n)
    (P := fun b => (f.operations.find? (fun j => j.applies b)).isSome = true)
  cases f with
  | selSensor => exact absurd rfl hs
  | event => exact absurd rfl he
  | selFc =>
    have hlt : sel.toNat < 9 := by simpa using hfc
    exact small (n := 9) (by decide) sel hlt
  | selSer x => cases x <;> exact small (n := 8) (by decide) sel hw
  | selPs | selDes | selBias | selHost => exact small (n := 4) (by decide) sel hw
  | selEmit => exact small (n := 16) (by decide) sel hw

/-- A reserved `fc_state` matches none (R66). -/
theorem decodeSel_reserved {sel : Byte} (hw : sel.toNat < 16) (h : 9 ≤ sel.toNat) :
    decodeSel ⟨.selFc, sel⟩ = .error .reservedFcState :=
  Byte.forall_lt (P := fun b => 9 ≤ b.toNat → decodeSel ⟨.selFc, b⟩ = .error .reservedFcState) (n := 16)
    (by decide) sel hw h

/-- A value too wide for its format names nothing (log entry 6). -/
theorem decodeSel_of_not_wellFormed {w : SelWord} (h : ¬ w.WellFormed) : decodeSel w = .error .bitsAboveSelector := by
  rw [decodeSel, if_neg h]

/-- Settles O2: the row found is the one row matched; the rejections by the value. -/
theorem selectorsNameOneOperation : Obligations.SelectorsNameOneOperation := by
  rintro ⟨f, sel⟩ rest
  refine ⟨fun hw hs he hfc => ?_, fun hw hf h9 => ?_, fun hf h0 => ?_, fun hf h1 => ?_, fun hf h1 => ?_, fun hw => ?_⟩
  · obtain ⟨i, hi⟩ := Option.isSome_iff_exists.1 (Format.find?_isSome hs he hw hfc)
    obtain ⟨hformat, happlies⟩ := Format.find?_eq_some_iff.1 hi
    refine ⟨i, ⟨hformat, by simpa [Instr.applies] using happlies⟩, fun j ⟨hj, hj'⟩ => ?_⟩
    have := Format.find?_eq_some_iff.2 ⟨hj, show j.applies sel = true by simpa [Instr.applies] using hj'⟩
    exact Option.some.inj (this.symm.trans hi)
  · cases hf
    exact decode_bytes_of_error (decodeSel_reserved hw h9) rest
  · cases h0
    rcases hf with hf | hf <;> cases hf <;> exact decode_bytes_of_error rfl rest
  · cases hf; cases h1
    exact decode_bytes_eq_ok_iff.2 ⟨rfl, rfl⟩
  · cases hf; cases h1
    exact decode_bytes_eq_ok_iff.2 ⟨rfl, rfl⟩
  · exact decode_bytes_of_error (decodeSel_of_not_wellFormed (Nat.not_lt.2 hw)) rest

/-! ### Encoding -/

/-- The match of a row fits its format and has no bit its mask leaves out. -/
theorem Instr.value_fits (i : Instr) :
    i.pattern.value.toNat < 2 ^ i.format.width ∧ i.pattern.value &&& i.pattern.mask = i.pattern.value := by
  cases i with
  | serIdle x | serLoad x | serShift x | serLast x => cases x <;> decide
  | _ => decide

/-- Whatever stands in the bits its mask leaves out, the word names the operation. -/
theorem Instr.decodeSel_fill (i : Instr) (x : Byte) (hx : x.toNat < 2 ^ i.format.width) :
    decodeSel ⟨i.format, (i.pattern.value &&& i.pattern.mask) ||| (x &&& ~~~ i.pattern.mask)⟩ = .ok i := by
  obtain ⟨hlt, hmask⟩ := i.value_fits
  rw [hmask]
  refine decodeSel_eq_ok_iff.2 ⟨?_, rfl, ?_⟩
  · rw [SelWord.WellFormed, BitVec.toNat_or, BitVec.toNat_and]
    exact Nat.or_lt_two_pow hlt (lt_of_le_of_lt Nat.and_le_left hx)
  · conv_rhs => rw [← hmask]
    ext k hk
    simp only [BitVec.getElem_and, BitVec.getElem_or, BitVec.getElem_not]
    cases i.pattern.mask[k] <;> simp

/-- Settles O3: the word of an operation and every word that fills the bits its mask leaves out match its row. -/
theorem encodedOperationsDecode : Obligations.EncodedOperationsDecode := by
  intro i rest
  obtain ⟨hlt, hmask⟩ := i.value_fits
  exact ⟨hlt, decode_bytes_eq_ok_iff.2 ⟨decodeSel_eq_ok_iff.2 ⟨hlt, rfl, hmask⟩, rfl⟩,
    fun x hx => decode_bytes_eq_ok_iff.2 ⟨i.decodeSel_fill x hx, rfl⟩⟩

/-- Settles O4: each word fits its format and matches the row named. -/
theorem wordsOfTheOperationMap : Obligations.WordsOfTheOperationMap := by
  refine ⟨?_, ?_, ?_, ?_, ?_, ?_, ?_, decodeSel_reserved (by decide) (by decide), ?_, ?_, ?_⟩ <;>
    exact decodeSel_eq_ok_iff.2 (by decide)

/-! ### What a step fetches -/

namespace Machine

/-- The FrameController's word decodes to its operation, if `fc_state` names a state. -/
theorem toOption_decode_selFc (s : State) :
    (decode (selFc s).bytes).toOption = (frameOp s.now.frame.state).map fun i => (i, []) := by
  cases hf : frameOp s.now.frame.state with
  | none => rw [decode_selFc_reserved s hf]; rfl
  | some i => rw [decode_selFc s hf]; rfl

/-- Settles O6: the words of each turn, by what each selector decodes to. -/
theorem fetchSelectsTheUnitsOperations : Obligations.FetchSelectsTheUnitsOperations := by
  refine fun s => ⟨fun ht hr => ?_, fun ht hr => ?_, fun ht => ?_, fun ht => ?_⟩ <;>
    simp only [State.fetch, ht, fetchSensor]
  · have hok (i : Instr) : (Except.ok (i, []) : Except Reject (Instr × List Byte)).toOption = some (i, []) := rfl
    simp [hr, State.unitOps, decode_selPs, decode_selSer, decode_selDes, decode_selEmit, decode_selBias,
      toOption_decode_selFc, hok]
  · simp [hr, decode_selSensor]
  · simp [decode_selHost]
  · simp [ht, decode_selEvent]

end Machine

end Sys2Proof
end

section
/-! PROOF. The serial lines send the words of their queues bit after bit (R85): what a serializer and its queue have
still to send, on the line and after one cycle. -/

namespace Sys2Proof.Machine

variable {s t : State} {w : Nat} {o : BitOrder} {x : Serializer w} {q : List (BitVec w)}

/-- A serializer sending a word has the rest of it pending, the bit on the line first. -/
theorem pendingBits_busy (hx : x.Ok o) (hw : x.haveWord = true) : pendingBits o x q =
    ext o x.sr :: ((wordBits o (shift o x.sr)).take (w - x.bitcnt - 1) ++ q.flatMap (wordBits o)) := by
  simp only [Serializer.Ok, hw, if_true] at hx
  obtain ⟨hpos, hlt, -⟩ := hx
  simp only [pendingBits, hw, if_true]
  rw [take_wordBits o x.sr _ (by omega) (by omega), List.cons_append]

/-- A serializer with no word has its queue pending, the first bit of the head on the line. -/
theorem pendingBits_load (h1 : 1 ≤ w) (hw : x.haveWord = false) (word : BitVec w) : pendingBits o x (word :: q) =
    ext o word :: ((wordBits o (shift o word)).take (w - 1) ++ q.flatMap (wordBits o)) := by
  simp only [pendingBits, hw, Bool.false_eq_true, if_false, List.nil_append, List.flatMap_cons]
  rw [wordBits_eq_cons h1 o word, List.cons_append]

/-- With no word and an empty queue nothing is pending. -/
theorem pendingBits_idle (hw : x.haveWord = false) : pendingBits o x [] = [] := by
  simp [pendingBits, hw]

/-- The line carries the first bit pending, 0 if there is none (R80). -/
theorem serOut_eq_headD (h1 : 1 ≤ w) (hx : x.Ok o) : serOut o x q = (pendingBits o x q).headD false := by
  cases hw : x.haveWord with
  | true => rw [serOut_of_haveWord hw, pendingBits_busy hx hw, List.headD_cons]
  | false =>
    cases q with
    | nil => rw [serOut_of_done hx hw, pendingBits_idle hw, List.headD_nil]
    | cons word q => rw [pendingBits_load h1 hw, List.headD_cons]; simp [serOut, hw]

/-- `done` says that nothing is pending (R80). -/
theorem serDone_iff (h1 : 1 ≤ w) (hx : x.Ok o) : serDone x q = true ↔ pendingBits o x q = [] := by
  cases hw : x.haveWord with
  | true => simp [serDone_of_haveWord hw, pendingBits_busy hx hw]
  | false =>
    cases q with
    | nil => simp [serDone, rRdy, hw, pendingBits_idle hw]
    | cons word q => simp [serDone, rRdy, pendingBits_load h1 hw]

/-- A cycle sends the first bit pending, and what it pushes is pending after the rest (R81 to R85). -/
theorem pendingBits_rtl (h1 : 1 ≤ w) (hx : x.Ok o) (push : Option (BitVec w)) :
    pendingBits o (Rtl.serializer o x q) (Rtl.queue q (Rtl.loads x q) push) =
      (pendingBits o x q).tail ++ push.toList.flatMap (wordBits o) := by
  cases hw : x.haveWord with
  | true =>
    have hq : Rtl.queue q (Rtl.loads x q) push = q ++ push.toList := by simp [Rtl.queue, Rtl.loads, hw]
    rw [pendingBits_busy hx hw, hq, List.tail_cons, pendingBits, List.flatMap_append, ← List.append_assoc]
    congr 2
    by_cases hlast : x.bitcnt + 1 = w
    · simp [Rtl.serializer, hw, hlast, show w - x.bitcnt - 1 = 0 by omega]
    · simp [Rtl.serializer, hw, hlast, Nat.sub_sub]
  | false =>
    cases q with
    | nil =>
      obtain ⟨hser, hqueue⟩ := serializer_idle (o := o) hw List.length_nil push
      rw [hser, hqueue, pendingBits_idle hw, pendingBits, hw]
      rfl
    | cons word q =>
      rw [serializer_cons hw, queue_loads_cons hw, pendingBits_load h1 hw, List.tail_cons, pendingBits,
        List.flatMap_append, ← List.append_assoc]
      rfl

/-- Settles O16: both instances by what a serializer and its queue have pending. -/
theorem serialLinesSendEveryBit : Obligations.SerialLinesSendEveryBit := by
  refine ⟨fun s hI hr => ?_, fun s t hI h => ?_⟩
  · obtain ⟨⟨hcmd, hcmdDone⟩, hbias, hbiasDone⟩ := serial_outputs hr
    dsimp only
    rw [hcmd, hcmdDone, hbias, hbiasDone]
    exact ⟨serOut_eq_headD (by decide) hI.regs.cmdSer, serDone_iff (by decide) hI.regs.cmdSer,
      serOut_eq_headD (by decide) hI.regs.biasSer, serDone_iff (by decide) hI.regs.biasSer⟩
  · obtain ⟨hn, -, -⟩ := h.regs
    rw [hn]
    exact ⟨pendingBits_rtl (by decide) hI.regs.cmdSer _, pendingBits_rtl (by decide) hI.regs.biasSer _⟩

end Sys2Proof.Machine
end

section
/-! PROOF. Capture and emission: the bits of a capture period in their order (R39, R91), what an overrun does (R92), and
when there is none (R101, R153). -/

namespace Sys2Proof.Machine

variable {s t : State} {us : List State}

/-! ### The bits of a capture period -/

/-- The first bit to arrive becomes bit 0 of a captured sample (R12, R91). -/
theorem getLsbD_rev14 (v : Sample) (i : Nat) (hi : i < 14) : (rev14 v).getLsbD i = v.getLsbD (13 - i) := by
  rw [rev14, BitVec.getLsbD_reverse, BitVec.getMsbD, decide_eq_true hi, Bool.true_and]

/-- The bits of a captured sample are those of its period in the order they arrived. -/
theorem bits_rev14_accumulate (a : Sample) (lane : Bool) :
    (List.range 14).map (fun i => (rev14 (accumulate a lane)).getLsbD i) = arrived a 13 ++ [lane] := by
  rw [← arrived_accumulate a lane 13 le_rfl, arrived]
  exact List.map_congr_left fun i hi => getLsbD_rev14 _ i (List.mem_range.1 hi)

/-- Within a line a capture completes the 14th cycle of a period (R91). -/
theorem captures_iff_dcnt (hl : s.now.latchEn = true) : s.now.captures = true ↔ s.now.des.dcnt = 13 := by
  simp [Regs.captures, hl]

/-- Within a capture period each cycle takes a bit of each lane and leaves the captured pair (R90). -/
theorem deserializer_of_accumulating (hl : s.now.latchEn = true) (hd : s.now.des.dcnt < 13) :
    (Rtl.deserializer s).dcnt = s.now.des.dcnt + 1 ∧
    (Rtl.deserializer s).accE = accumulate s.now.des.accE s.draw.laneE ∧
    (Rtl.deserializer s).accO = accumulate s.now.des.accO s.draw.laneO := by
  simp [Rtl.deserializer, Rtl.acc, hl, hd.ne]

/-- A capture latches the reversed accumulators with the bits of its own cycle (R91). -/
theorem deserializer_of_captures (hc : s.now.captures = true) :
    (Rtl.deserializer s).haveData = true ∧
    (Rtl.deserializer s).outE = rev14 (accumulate s.now.des.accE s.draw.laneE) ∧
    (Rtl.deserializer s).outO = rev14 (accumulate s.now.des.accO s.draw.laneO) := by
  simp [Rtl.deserializer, hc]

/-- Settles O19: outside a line nothing is accumulated, within one each cycle appends, and the 14th captures. -/
theorem capturePeriods : Obligations.CapturePeriods := by
  intro s t hI h
  obtain ⟨hn, -, -⟩ := h.regs
  obtain ⟨hle, -⟩ := hI.regs.des
  have hdes : t.now.des = Rtl.deserializer s := by rw [hn, Rtl.regs]
  rw [hdes]
  refine ⟨fun hl => ?_, fun hl => ?_, fun hl hd => ?_, fun hl hd => ?_⟩
  · obtain ⟨hE, hO, hdcnt⟩ := deserializer_acc_of_not_latchEn hl
    obtain ⟨houtE, houtO, -⟩ := deserializer_pair_of_not_captures (captures_of_not_latchEn hl)
    exact ⟨hdcnt, hE, hO, houtE, houtO⟩
  · rw [deserializer_dcnt hle, if_pos hl]
  · have hcap : s.now.captures = false := by
      rw [← Bool.not_eq_true, captures_iff_dcnt hl]; exact hd.ne
    obtain ⟨hdcnt, hE, hO⟩ := deserializer_of_accumulating hl hd
    obtain ⟨houtE, houtO, -⟩ := deserializer_pair_of_not_captures hcap
    rw [hdcnt, hE, hO]
    exact ⟨arrived_accumulate _ _ _ hd.le, arrived_accumulate _ _ _ hd.le, houtE, houtO⟩
  · obtain ⟨hdata, houtE, houtO⟩ := deserializer_of_captures ((captures_iff_dcnt hl).2 hd)
    rw [houtE, houtO]
    exact ⟨hdata, bits_rev14_accumulate _ _, bits_rev14_accumulate _ _⟩

/-! ### Overruns -/

/-- A pair waiting has four bytes pending, less those sent. -/
theorem length_pendingBytes (d : Deserializer) :
    d.pendingBytes.length = if d.haveData then 4 - d.emitSt.code.toNat else 0 := by
  unfold Deserializer.pendingBytes
  split
  · rw [List.length_drop]; rfl
  · rfl

/-- A capture is an overrun exactly when more bytes are pending than its cycle emits (R92). -/
theorem overruns_iff (s : State) : s.overruns = true ↔ s.bwRdy.toNat < s.now.des.pendingBytes.length := by
  rw [length_pendingBytes, State.overruns, State.emitsOddHigh]
  cases s.now.des.haveData <;> cases s.bwRdy <;> cases s.now.des.emitSt <;> decide

/-- A cycle leaves nothing pending when it emits as many bytes as there are. -/
theorem left_eq_nil_iff (b : Bool) (bytes : List Byte) :
    (if b then bytes.tail else bytes) = [] ↔ bytes.length ≤ b.toNat := by
  rw [← List.length_eq_zero_iff]
  cases b with
  | false => simp
  | true => rw [if_pos rfl, List.length_tail, Bool.toNat_true]; omega

/-- A sensor cycle counts an overrun exactly for a capture that is one (R92). -/
theorem SensorStep.overrunCount_eq (h : SensorStep s t) : t.now.overrunCount =
    if s.now.captures && s.overruns then s.now.overrunCount + 1 else s.now.overrunCount := by
  obtain ⟨hn, -, -⟩ := h.regs
  rw [hn, Rtl.regs]

/-- A fault-free sensor cycle gives the SampleDeserializer its next values. -/
theorem SensorStep.des_eq (h : SensorStep s t) : t.now.des = Rtl.deserializer s := by
  obtain ⟨hn, -, -⟩ := h.regs
  rw [hn, Rtl.regs]

/-- The codes of the emit states count the bytes sent (R61). -/
theorem code_emitSucc (st : EmitState) : (Rtl.emitSucc st).code = st.code + 1 := by
  cases st <;> rfl

/-- Settles O26: the count by the bytes left, the new pair by the capture, the byte reached by the emission. -/
theorem overrunTearsTheRecord : Obligations.OverrunTearsTheRecord := by
  intro s t h hc
  obtain ⟨hdata, hE, hO⟩ := deserializer_of_captures hc
  dsimp only
  rw [h.overrunCount_eq, h.des_eq, hc, Bool.true_and]
  refine ⟨?_, hdata, ?_, hE, hO, ?_⟩
  · simp only [overruns_iff, left_eq_nil_iff]
    split <;> split <;> omega
  · rw [deserializer_emitSt]
    split
    · exact code_emitSucc _
    · rfl
  · rw [Deserializer.pendingBytes, if_pos hdata, hE, hO]

/-! ### Keeping ahead -/

/-- With a pair to emit and `bw_rdy` an emission that keeps ahead does not meet a capture. -/
theorem Deserializer.Ahead.not_overruns (hA : s.now.des.Ahead) (hc : s.now.captures = true) : s.overruns = false := by
  have hdcnt : s.now.des.dcnt = 13 := by
    rw [Regs.captures, Bool.and_eq_true, beq_iff_eq] at hc
    exact hc.2
  cases hd : s.now.des.haveData with
  | false => simp [State.overruns, hd]
  | true =>
    have := hA hd
    have : s.now.des.emitSt.code.toNat < 4 := s.now.des.emitSt.code.isLt
    omega

/-- The code of the next emit state, unless the last byte is sent. -/
theorem toNat_code_emitSucc {st : EmitState} (h : st ≠ .oddHigh) :
    (Rtl.emitSucc st).code.toNat = st.code.toNat + 1 := by
  cases st with
  | oddHigh => exact absurd rfl h
  | evenLow | evenHigh | oddLow => rfl

/-- The next value of `dcnt` is one more, or 0. -/
theorem deserializer_dcnt_le (s : State) : (Rtl.deserializer s).dcnt ≤ s.now.des.dcnt + 1 := by
  simp only [Rtl.deserializer]
  split <;> omega

/-- An emission that has kept ahead keeps ahead in a cycle with `bw_rdy` (R101). -/
theorem Deserializer.Ahead.rtl (hA : s.now.des.Ahead) (hb : s.bwRdy = true) : (Rtl.deserializer s).Ahead := by
  intro hd
  cases hc : s.now.captures with
  | true =>
    have : (Rtl.deserializer s).dcnt = 0 := by
      obtain ⟨hl, hdcnt⟩ := Bool.and_eq_true_iff.1 hc
      have : s.now.des.dcnt = 13 := by simpa using hdcnt
      simp [Rtl.deserializer, this]
    omega
  | false =>
    obtain ⟨-, -, hpair⟩ := deserializer_pair_of_not_captures hc
    rw [hpair] at hd
    obtain ⟨hdata, hlast⟩ := Bool.and_eq_true_iff.1 hd
    have hne : s.now.des.emitSt ≠ .oddHigh := by simpa [State.emitsOddHigh, hdata, hb] using hlast
    have := deserializer_dcnt_le s
    have := hA hdata
    rw [deserializer_emitSt, hdata, hb, Bool.true_and, if_pos rfl, toNat_code_emitSucc hne]
    omega

/-! ### The 14 cycles after a capture -/

/-- A host cycle leaves the SampleDeserializer and the overrun count alone and adds nothing to the bridging queue. -/
theorem des_of_hostStep (h : step s = .next t) (ht : s.draw.turn = .host) :
    t.now.des = s.now.des ∧ t.now.overrunCount = s.now.overrunCount ∧
      t.now.bridgeQ.length ≤ s.now.bridgeQ.length ∧ t.cfg = s.cfg := by
  obtain ⟨-, hcfg, -⟩ := step_inv h
  obtain ⟨removed, hrem⟩ := host_effect_removes s
  have hn := now_of_hostStep h ht
  have hframe := host_effect_frame s
  rw [← hn] at hrem hframe
  refine ⟨by rw [hframe], by rw [hframe], ?_, hcfg⟩
  rw [hrem, List.length_append]; omega

/-- A sensor cycle of a line before the 14th of a period: one more is counted, and the bytes pending go on. -/
theorem SensorStep.accumulating (h : SensorStep s t) (hl : s.now.latchEn = true) (hd : s.now.des.dcnt < 13) :
    t.now.des.dcnt = s.now.des.dcnt + 1 ∧ t.now.overrunCount = s.now.overrunCount ∧
    t.now.des.pendingBytes = if s.bwRdy then s.now.des.pendingBytes.tail else s.now.des.pendingBytes := by
  have hcap : s.now.captures = false := by
    rw [← Bool.not_eq_true, captures_iff_dcnt hl]; exact hd.ne
  obtain ⟨hdcnt, -⟩ := deserializer_of_accumulating hl hd
  rw [h.overrunCount_eq, h.des_eq, hcap]
  exact ⟨hdcnt, rfl, pendingBytes_of_not_captures hcap⟩

/-- The sensor cycles of a run within a line are in the line. -/
theorem LineRun.latchEn (h : LineRun s us t) : ∀ u ∈ us, u.now.latchEn = true := by
  induction h with
  | refl => exact List.forall_mem_nil _
  | sensor hl _ _ ih => exact List.forall_mem_cons.2 ⟨hl, ih⟩
  | host _ _ _ ih => exact ih

/-- Host cycles alone count no overrun. -/
theorem LineRun.overrunCount_of_nil (h : LineRun s us t) (hus : us = []) :
    t.now.overrunCount = s.now.overrunCount := by
  induction h with
  | refl => rfl
  | sensor => cases hus
  | host ht hstep _ ih =>
    obtain ⟨-, hcount, -⟩ := des_of_hostStep hstep ht
    exact (ih hus).trans hcount

/-- Up to the next capture `dcnt` counts the sensor cycles. -/
theorem LineRun.map_dcnt (h : LineRun s us t) (hlen : s.now.des.dcnt + us.length ≤ 14) :
    us.map (·.now.des.dcnt) = List.range' s.now.des.dcnt us.length := by
  induction h with
  | refl => rfl
  | @sensor s t u us hl hstep _ ih =>
    rw [List.length_cons] at hlen
    rw [List.map_cons, List.length_cons, List.range'_succ]
    congr 1
    rcases us with - | ⟨u', us⟩
    · rfl
    · rw [List.length_cons] at hlen
      obtain ⟨hdcnt, -⟩ := hstep.accumulating hl (by omega)
      rw [ih (by rw [hdcnt, List.length_cons]; omega), hdcnt]
  | host ht hstep _ ih =>
    obtain ⟨hdes, -⟩ := des_of_hostStep hstep ht
    rw [← hdes] at hlen ⊢
    exact ih hlen

/-- The capture at the end of a period is an overrun exactly when fewer of its cycles had `bw_rdy` than bytes were
pending (R101, R153). -/
theorem LineRun.overrunCount_eq (h : LineRun s us t) (hne : us ≠ []) (hlen : s.now.des.dcnt + us.length = 14) :
    t.now.overrunCount = if s.now.des.pendingBytes.length ≤ us.countP (·.bwRdy) then s.now.overrunCount
      else s.now.overrunCount + 1 := by
  induction h with
  | refl => exact absurd rfl hne
  | @sensor s t u us hl hstep hrun ih =>
    rw [List.length_cons] at hlen
    rw [List.countP_cons]
    rcases us with - | ⟨u', us⟩
    · have hcap := (captures_iff_dcnt hl).2 (by simpa using hlen)
      rw [hrun.overrunCount_of_nil rfl, hstep.overrunCount_eq, hcap, Bool.true_and, List.countP_nil]
      simp only [overruns_iff]
      cases s.bwRdy <;> simp only [Bool.toNat_false, Bool.toNat_true, Bool.false_eq_true, if_true, if_false] <;>
        split <;> split <;> omega
    · rw [List.length_cons] at hlen
      obtain ⟨hdcnt, hcount, hpending⟩ := hstep.accumulating hl (by omega)
      rw [ih (List.cons_ne_nil _ _) (by rw [hdcnt, List.length_cons]; omega), hcount, hpending]
      cases hb : s.bwRdy with
      | false => simp
      | true => simp
  | host ht hstep _ ih =>
    obtain ⟨hdes, hcount, -⟩ := des_of_hostStep hstep ht
    rw [← hdes] at hlen ⊢
    rw [ih hne hlen, hcount]

/-- With an exact `bw_rdy` and room for the bytes pending, every one of them leaves in its own cycle. -/
theorem LineRun.pending_le_countP (h : LineRun s us t) (hlen : s.now.des.dcnt + us.length = 14)
    (hsees : ∀ u ∈ us, u.draw.bwSees = true) (hpend : s.now.des.pendingBytes.length ≤ us.length)
    (hroom : s.now.bridgeQ.length + s.now.des.pendingBytes.length ≤ s.cfg.bridgeDepth) :
    s.now.des.pendingBytes.length ≤ us.countP (·.bwRdy) := by
  induction h with
  | refl => exact hpend
  | @sensor s t u us hl hstep hrun ih =>
    obtain ⟨hsee, hsees⟩ := List.forall_mem_cons.1 hsees
    rw [List.length_cons] at hlen hpend
    rcases Nat.eq_zero_or_pos s.now.des.pendingBytes.length with h0 | hpos
    · rw [h0]; exact Nat.zero_le _
    · have hb : s.bwRdy = true := by simp [State.bwRdy, wRdy, hsee]; omega
      rw [List.countP_cons, hb, if_pos rfl]
      rcases us with - | ⟨u', us⟩
      · exact hpend
      · rw [List.length_cons] at hlen hpend
        obtain ⟨hdcnt, -, hpending⟩ := hstep.accumulating hl (by omega)
        obtain ⟨hn, -, hcfg⟩ := hstep.regs
        have hqueue : t.now.bridgeQ.length ≤ s.now.bridgeQ.length + 1 := by
          rw [hn]
          show (s.now.bridgeQ ++ (Rtl.emitted s).toList).length ≤ _
          rw [List.length_append]
          exact Nat.add_le_add_left (Option.length_toList_le) _
        rw [hb, if_pos rfl] at hpending
        have htail : t.now.des.pendingBytes.length = s.now.des.pendingBytes.length - 1 := by
          rw [hpending, List.length_tail]
        have := ih (by rw [hdcnt, List.length_cons]; omega) hsees (by rw [htail, List.length_cons]; omega)
          (by rw [htail, hcfg]; omega)
        omega
  | host ht hstep _ ih =>
    obtain ⟨hdes, -, hqueue, hcfg⟩ := des_of_hostStep hstep ht
    rw [← hdes] at hlen hpend hroom ⊢
    exact ih hlen hsees hpend (by rw [hcfg]; omega)

/-- Settles O27: keeping ahead by the cycle, the 14 cycles by induction over the run. -/
theorem noOverrunWithSpace : Obligations.NoOverrunWithSpace := by
  refine ⟨fun s t _ h hA hb => ?_, fun s t us h hlen hd => ?_, fun d hd he => ?_,
    fun s t us h hlen hd hsees hroom => ?_⟩
  · rw [h.overrunCount_eq, h.des_eq]
    refine ⟨hA.rtl hb, if_neg ?_⟩
    rw [Bool.and_eq_true, not_and]
    exact fun hc => by simp [hA.not_overruns hc]
  · have hne : us ≠ [] := List.ne_nil_of_length_pos (by omega)
    refine ⟨fun u hu => captures_iff_dcnt (h.latchEn u hu), ?_, h.overrunCount_eq hne (by omega)⟩
    rw [h.map_dcnt (by omega), hd, hlen, List.range_eq_range']
  · rw [pendingBytes_of_evenLow hd he]; rfl
  · have hne : us ≠ [] := List.ne_nil_of_length_pos (by omega)
    have hpend : s.now.des.pendingBytes.length ≤ us.length := by
      rw [length_pendingBytes, hlen]; split <;> omega
    rw [h.overrunCount_eq hne (by omega), if_pos (h.pending_le_countP (by omega) hsees hpend hroom)]

end Sys2Proof.Machine
end

section
/-! PROOF. What a step is, in every state: a refused configuration, the end of the run, or the next registers; and what
it therefore does not depend on. -/

namespace Sys2Proof.Machine

variable {s t : State}

/-! ### The next registers of a step -/

/-- The registers after a step that answers a next state. -/
def State.nextRegs (s : State) : Regs :=
  match s.draw.turn with
  | .reset => Regs.reset.setHostStream s.now.hostStream
  | .host => effectOf (hostOp s.sensorRst s.hostTakes) s s.now
  | .sensor => if s.sensorRst then s.now.heldInReset else Rtl.next s

/-- Under a valid configuration, before a fault or for the system reset, a step gives the registers their next values
and uses up its input. -/
theorem step_eq_nextRegs (hv : s.cfg.Valid) (h : s.now.fault = none ∨ s.draw.turn = .reset) :
    step s = .next (s.setRegs s.nextRegs).nextDraw := by
  obtain ⟨t, ht⟩ : ∃ t, step s = .next t := by
    rcases h with hf | hr
    · exact exists_step_next hv hf
    · exact ⟨_, step_reset hv hr⟩
  rw [ht, Host.Outcome.next.injEq]
  obtain ⟨-, hcfg, hset, hscript, htick, hx⟩ := step_inv ht
  have hnow : t.now = s.nextRegs := by
    rcases hx with ⟨hr, hn⟩ | ⟨hr, -, hn⟩ | ⟨hr, -, hheld, hn⟩ | ⟨hc, hn⟩ <;> rw [hn, State.nextRegs]
    · rw [hr]
    · rw [hr]
    · rw [hr, hheld]; rfl
    · rw [hc.turn, hc.sensorRst]; rfl
  exact State.eq_of_parts hcfg hnow (hset.trans hnow) hscript htick

/-- Steps from states under the same configuration, after the same registers and inputs but for the one used up now,
are the same when they lead to the same registers. -/
theorem step_congr {s' : State} (hcfg : s'.cfg = s.cfg) (hf : s'.now.fault = s.now.fault)
    (ht : s'.draw.turn = s.draw.turn) (hscript : s'.script.tail = s.script.tail) (htick : s'.tick = s.tick)
    (hn : s'.nextRegs = s.nextRegs) : step s' = step s := by
  cases hv : s.cfg.firstFailed with
  | some c => rw [step_refused hv, step_refused (hcfg ▸ hv)]
  | none =>
    by_cases hgo : s.now.fault = none ∨ s.draw.turn = .reset
    · rw [step_eq_nextRegs hv hgo, step_eq_nextRegs (hcfg ▸ hv) (by rwa [hf, ht]), hn, Host.Outcome.next.injEq]
      exact State.eq_of_parts hcfg rfl rfl hscript (congrArg (· + 1) htick)
    · obtain ⟨hne, hr⟩ := not_or.1 hgo
      obtain ⟨f, hsome⟩ := Option.ne_none_iff_exists'.1 hne
      rw [step_ended hv hsome hr, step_ended (hcfg ▸ hv) (hf.trans hsome) (ht ▸ hr)]

/-- Settles O8: by the three things a step can answer. -/
theorem stepStopsOnlyWhenEnded : Obligations.StepStopsOnlyWhenEnded := by
  refine fun s => ⟨⟨?_, fun ⟨hv, h⟩ => ⟨_, step_eq_nextRegs hv h⟩⟩, fun c => step_refused,
    fun f hv hf ht => step_ended hv hf ht⟩
  rintro ⟨t, h⟩
  obtain ⟨hv, -, -, -, -, hx⟩ := step_inv h
  rcases hx with ⟨hr, -⟩ | ⟨-, hf, -⟩ | ⟨-, hf, -⟩ | ⟨hc, -⟩
  · exact ⟨hv, .inr hr⟩
  · exact ⟨hv, .inl hf⟩
  · exact ⟨hv, .inl hf⟩
  · exact ⟨hv, .inl hc.noFault⟩

/-- Settles O5: a step is a cycle, and a cycle performs the operations its words decode to. -/
theorem stepRunsTheDecodedOperations : Obligations.StepRunsTheDecodedOperations := by
  intro s is hv hf hd
  rw [step_eq_cycle hv hf, cycle, runWords_of_decode hd]

/-! ### The lanes and the debug bus -/

/-- Steps on the same turn from the same registers lead to the same registers when the host sees and takes the same and
a sensor cycle has the same next values. -/
theorem nextRegs_congr {s' : State} (hn : s'.now = s.now) (ht : s'.draw.turn = s.draw.turn)
    (hr : s'.sensorRst = s.sensorRst) (hh : s'.hostTakes = s.hostTakes)
    (hrtl : s.draw.turn = .sensor → s.sensorRst = false → Rtl.next s' = Rtl.next s) :
    s'.nextRegs = s.nextRegs := by
  cases hs : s.draw.turn with
  | reset => simp only [State.nextRegs, ht, hs, hn]
  | host =>
    simp only [State.nextRegs, ht, hs]
    rw [← hn, host_effect s', hn, host_effect s, hr, hh]
  | sensor =>
    simp only [State.nextRegs, ht, hs, hr, hn]
    cases hr : s.sensorRst with
    | true => rfl
    | false => exact hrtl hs hr

/-- Outside a line the SampleDeserializer reads no lane (R89). -/
theorem deserializer_of_not_latchEn (hl : s.now.latchEn = false) :
    Rtl.deserializer s = { s.now.des with
      accE := 0, accO := 0, dcnt := 0
      haveData := s.now.des.haveData && !s.emitsOddHigh
      emitSt := if (Rtl.emitted s).isSome then Rtl.emitSucc s.now.des.emitSt else s.now.des.emitSt } := by
  simp [Rtl.deserializer, Rtl.acc, Regs.captures, hl]

/-- The next values, by the fault and the values after a cycle without one. -/
theorem rtl_next_of_regs {s' : State} (hn : s'.now = s.now) (hf : Rtl.fault s' = Rtl.fault s)
    (hr : Rtl.regs s' = Rtl.regs s) : Rtl.next s' = Rtl.next s := by
  simp only [Rtl.next, hf, hr, hn]

/-- Settles O28: the next registers depend on the lanes in a sensor cycle of a line alone, and on the debug bus never. -/
theorem lanesMatterOnlyInReadLine : Obligations.LanesMatterOnlyInReadLine := by
  refine ⟨fun s d ds e o hd hout => ?_, fun s d ds b hd => ?_⟩
  · obtain ⟨⟨now, nxt, script, tick⟩, cfg⟩ := s
    cases hd
    refine step_congr rfl rfl rfl rfl rfl (nextRegs_congr rfl rfl rfl rfl fun ht hr => ?_)
    have hl : now.latchEn = false := by simpa [show _ = false from hr, show d.turn = _ from ht] using hout
    have hdes := deserializer_of_not_latchEn (s := ⟨⟨now, nxt, d :: ds, tick⟩, cfg⟩) hl
    have hdes' := deserializer_of_not_latchEn (s := ⟨⟨now, nxt, { d with laneE := e, laneO := o } :: ds, tick⟩, cfg⟩) hl
    exact rtl_next_of_regs rfl rfl
      (congrArg (fun des => { Rtl.regs ⟨⟨now, nxt, d :: ds, tick⟩, cfg⟩ with des := des }) (hdes'.trans hdes.symm))
  · obtain ⟨⟨now, nxt, script, tick⟩, cfg⟩ := s
    cases hd
    exact step_congr rfl rfl rfl rfl rfl (nextRegs_congr rfl rfl rfl rfl fun _ _ => rfl)

/-! ### The marker -/

/-- Settles O54: no step writes the configuration, and no next register reads the marker. -/
theorem configurationIsConstant : Obligations.ConfigurationIsConstant := by
  refine ⟨fun s t h => (step_inv h).2.1, fun s t b h => ?_⟩
  obtain ⟨hv, hgo⟩ := (stepStopsOnlyWhenEnded s).1.1 ⟨t, h⟩
  rw [step_eq_nextRegs hv hgo] at h
  cases h
  have hn : State.nextRegs { s with cfg := { s.cfg with markerVariant := b } } = s.nextRegs :=
    nextRegs_congr rfl rfl rfl rfl fun _ _ => rfl
  rw [← hn]
  exact step_eq_nextRegs (s := { s with cfg := { s.cfg with markerVariant := b } }) hv hgo

end Sys2Proof.Machine
end

section
/-! PROOF. The control of the block depends on neither the lanes nor the host (R119), and faults are precise (R133,
R134). -/

namespace Sys2Proof.Machine

variable {s s' t : State}

/-! ### Control -/

section
variable (hc : s'.cfg = s.cfg) (h : s.now.SameControl s'.now)
include hc h

/-- The fault of a sensor cycle is a function of the control registers, and so are their next values. -/
theorem Regs.SameControl.rtl : Rtl.fault s' = Rtl.fault s ∧ (Rtl.regs s).SameControl (Rtl.regs s') := by
  obtain ⟨⟨⟨_, _, _, _, _, _, _, _, _, _, _, _, _, _⟩, _, _, _⟩, cfg⟩ := s
  obtain ⟨⟨⟨_, _, _, _, _, _, _, _, _, _, _, _, _, _⟩, _, _, _⟩, _⟩ := s'
  obtain ⟨h1, h2, h3, h4, h5, h6, h7, h8, h9⟩ := h
  cases hc; cases h1; cases h2; cases h3; cases h4; cases h5; cases h6; cases h7; cases h8; cases h9
  exact ⟨rfl, rfl, rfl, rfl, rfl, rfl, rfl, rfl, rfl, rfl⟩

/-- So are their values after a cycle that may fault. -/
theorem Regs.SameControl.next_rtl : (Rtl.next s).SameControl (Rtl.next s') := by
  obtain ⟨hf, hregs⟩ := h.rtl hc
  cases hs : Rtl.fault s with
  | none => rw [next_of_none hs, next_of_none (hf.trans hs)]; exact hregs
  | some f =>
    rw [next_of_some hs, next_of_some (hf.trans hs)]
    exact ⟨h.power, h.frame, h.inj, h.cmdSer, h.biasSer, h.cmdQ, h.biasQ, h.cycle, rfl⟩

end

/-- A counted state counts or is left. -/
theorem frame_ne_of_lineLength {n : Nat} (h : Rtl.lineLength s.cfg s.now.frame.state = some n)
    (hw : s.now.frame.state = Fc.waitFrameStart → s.now.cmdDone = true) : Rtl.frame s ≠ s.now.frame := by
  by_cases hn : s.now.frame.lineCnt + 1 = n
  · obtain ⟨-, hst⟩ := frame_of_last h hw hn
    refine fun heq => ?_
    rw [heq] at hst
    rcases states_of_lineLength h with hs | hs | hs | hs <;> rw [hs] at hst
    · simp at hst
    · rw [if_pos rfl] at hst; split at hst <;> cases hst
    · simp at hst
    · simp at hst
  · rw [frame_of_not_last h hw hn]
    exact fun heq => Nat.succ_ne_self _ (congrArg Frame.lineCnt heq)

/-- Init counts or is left (R105). -/
theorem frame_ne_of_init (hs : s.now.frame.state = Fc.init) : Rtl.frame s ≠ s.now.frame := by
  intro heq
  have hst := congrArg Frame.state heq
  have hcnt := congrArg Frame.initCnt heq
  simp only [Rtl.frame, Rtl.fcState, hs] at hst hcnt
  split at hst <;> simp_all

/-- The states that send a command word last one cycle (R106 to R108). -/
theorem fcState_ne_of_sending (hs : s.now.frame.state = Fc.sendCmd ∨ s.now.frame.state = Fc.sendCmdStrobe ∨
    s.now.frame.state = Fc.sendCmdAdvance) : Rtl.fcState s ≠ s.now.frame.state := by
  rcases hs with hs | hs | hs
  · rw [fcState_of_sendCmd hs, hs]; decide
  · rw [fcState_of_sendCmdStrobe hs, hs]; decide
  · simp only [Rtl.fcState, hs]
    by_cases h11 : s.now.frame.cmdIdx = 11 <;> simp [h11]

/-- The FrameController stands still only to wait for `ready` or for `cmd_done` (R104, R109). -/
theorem frame_ne_of_noFault (hf : Rtl.fault s = none)
    (hp : ¬ (s.now.frame.state = Fc.powerup ∧ s.now.ready = false))
    (hw : ¬ (s.now.frame.state = Fc.waitFrameStart ∧ s.now.cmdDone = false)) : Rtl.frame s ≠ s.now.frame := by
  have hsend (hs) : Rtl.frame s ≠ s.now.frame := fun heq =>
    fcState_ne_of_sending (s := s) hs (congrArg Frame.state heq)
  have hwait : s.now.frame.state = Fc.waitFrameStart → s.now.cmdDone = true := by simpa using hw
  obtain ⟨i, hi⟩ : ∃ i, frameOp s.now.frame.state = some i := by
    refine Option.ne_none_iff_exists'.1 fun hn => ?_
    exact absurd ((frameOp_eq_none_iff _).1 hn) (Nat.not_le_of_lt (frameState_of_noFault hf))
  rcases frameOp_cases hi with ⟨hs, -⟩ | ⟨hs, -⟩ | ⟨hs, -⟩ | ⟨hs, -⟩ | ⟨hs, -⟩ | ⟨hs, -⟩ | ⟨hs, -⟩ | ⟨hs, -⟩ | ⟨hs, -⟩
  · have hr : s.now.ready = true := by simpa [hs] using hp
    rw [frame_of_powerup hs, if_pos hr]
    exact fun heq => absurd (hs.symm.trans (congrArg Frame.state heq).symm) (by simp)
  · exact frame_ne_of_init hs
  · exact hsend (.inl hs)
  · exact hsend (.inr (.inl hs))
  · exact hsend (.inr (.inr hs))
  all_goals exact frame_ne_of_lineLength (by rw [hs]; rfl) hwait

/-- Settles O37: the control registers and their next values, and what a host cycle leaves alone. -/
theorem controlIgnoresHostAndLanes : Obligations.ControlIgnoresHostAndLanes := by
  refine ⟨fun s s' t t' hcyc hcyc' hc hsame h h' => ?_, fun s t h ht => ?_, fun s t h hp hw => ?_⟩
  · rw [hcyc.now_of_step h, hcyc'.now_of_step h']
    exact hsame.next_rtl hc
  · rw [now_of_hostStep h ht]
    exact (host_effect_control s).1
  · obtain ⟨-, hf, -⟩ := h.regs
    rw [h.frame_eq]
    exact frame_ne_of_noFault hf hp hw

/-! ### Faults -/

/-- A command word meets a full queue exactly in SendCmd with a full `cmd_q` (R106, R134). -/
theorem cmdOverflows_iff (hv : s.cfg.Valid) :
    ((Rtl.cmdPush s).isSome && !wRdy s.now.cmdQ s.cfg.cmdQDepth) = true ↔
      s.now.frame.state = Fc.sendCmd ∧ s.cfg.cmdQDepth ≤ s.now.cmdQ.length := by
  by_cases hs : s.now.frame.state = Fc.sendCmd
  · obtain ⟨w, hw⟩ := cmdPush_of_sendCmd hv hs
    simp [hw, hs, wRdy]
  · rw [cmdPush_of_ne hs]
    exact iff_of_false Bool.false_ne_true fun h => hs h.1

/-- A bias word meets a full queue exactly in the write phase of a burst with a full `bias_q` (R114, R134). -/
theorem biasOverflows_iff : ((Rtl.biasPush s).isSome && !wRdy s.now.biasQ s.cfg.biasQDepth) = true ↔
    s.now.inj.active = true ∧ s.now.inj.phase = false ∧ s.cfg.biasQDepth ≤ s.now.biasQ.length := by
  cases ha : s.now.inj.active <;> cases hp : s.now.inj.phase <;> simp [Rtl.biasPush, ha, hp, wRdy]

/-- No step records a fault but a sensor cycle of the seven units. -/
theorem fault_of_not_cycle (h : step s = .next t) (hc : ¬ s.SensorCycle) : t.now.fault = none := by
  obtain ⟨-, -, -, -, -, hx⟩ := step_inv h
  rcases hx with ⟨-, hn⟩ | ⟨-, hf, hn⟩ | ⟨-, hf, -, hn⟩ | ⟨hcyc, -⟩
  · rw [hn]; rfl
  · rw [hn, (host_effect_control s).1.fault, hf]
  · rw [hn]; exact hf
  · exact absurd hcyc hc

/-- Settles O50: the fault of the next values is the first of its causes; a cycle with a fault changes nothing else. -/
theorem faultsArePrecise : Obligations.FaultsArePrecise := by
  refine ⟨fun s t hc h => ?_, fun s t h hout => fault_of_not_cycle h fun hc => ?_,
    fun s f hv hf => ⟨step_ended hv hf, fun ht => ?_⟩⟩
  · have hn := hc.now_of_step h
    have hfault : t.now.fault = Rtl.fault s := by rw [hn, next_fault]
    refine ⟨?_, fun f hf => ⟨?_, (step_inv h).2.1⟩⟩
    · rw [hfault, Rtl.fault]
      rw [if_congr (cmdOverflows_iff hc.valid) rfl (if_congr biasOverflows_iff rfl rfl),
        if_congr (Bool.and_eq_true_iff) rfl rfl]
    · rw [hn, next_of_some (hfault.symm.trans hf)]
  · rcases hout with ht | hr
    · exact ht hc.turn
    · rw [hc.sensorRst] at hr; cases hr
  · obtain ⟨t, h⟩ := (stepStopsOnlyWhenEnded s).1.2 ⟨hv, .inr ht⟩
    exact ⟨t, h, fault_of_not_cycle h fun hc => by rw [hc.turn] at ht; cases ht⟩

end Sys2Proof.Machine
end

section
/-! PROOF. The configuration (R10, R25), the hold and the reset (R145 to R147), and the bit functions (R9, R12). -/

namespace Sys2Proof.Machine

variable {s t : State} {p cfg : Params} {b : Block}

/-! ### Configurations -/

/-- A configuration is valid when every condition of R10 holds. -/
theorem valid_iff_meets : p.Valid ↔ ∀ c, p.meets c = true :=
  ⟨Params.meets_of_valid, fun h => List.find?_eq_none.2 fun c _ => by simp [h c]⟩

/-- The conditions of R10 in the order of the check. -/
theorem valid_iff_forall_inOrder : p.Valid ↔ ∀ c ∈ ParamCheck.inOrder, p.meets c = true := by
  rw [Params.Valid, Params.firstFailed, List.find?_eq_none]
  simp

/-- Settles O51: the check goes through the conditions in their order. -/
theorem configurationsAreChecked : Obligations.ConfigurationsAreChecked := by
  refine fun p => ⟨?_, fun c hc => ?_⟩
  · rw [valid_iff_forall_inOrder]
    simp [ParamCheck.inOrder, Params.meets, Config.cmdCount, Config.cmdWidth, Config.biasWidth, and_assoc]
  · obtain ⟨hfail, before, after, happ, hbefore⟩ := List.find?_eq_some_iff_append.1 hc
    exact ⟨by simpa using hfail, before, after, happ, fun d hd => by simpa using hbefore d hd⟩

/-- The defaults of R8 leave a valid configuration valid. -/
theorem valid_defaults (h : p.Valid) :
    ({ p with biasWrites := Config.defaultBiasWrites p.cols, rstHold := Config.defaultRstHold } : Params).Valid := by
  have others (c) (hb : c ≠ .biasWrites) (hr : c ≠ .rstHold) : Params.meets
      { p with biasWrites := Config.defaultBiasWrites p.cols, rstHold := Config.defaultRstHold } c = p.meets c := by
    cases c <;> simp at hb hr <;> rfl
  refine valid_iff_meets.2 fun c => ?_
  by_cases hb : c = .biasWrites
  · obtain ⟨-, hcols, -⟩ := Params.bounds_of_valid h
    rw [hb]
    exact decide_eq_true (Nat.le_sub_of_add_le hcols)
  by_cases hr : c = .rstHold
  · rw [hr]; rfl
  · rw [others c hb hr, Params.meets_of_valid h]

/-- Settles O52: a line has seven cycles per column, and one column has no write. -/
theorem defaultsMeetTheBurstConditions : Obligations.DefaultsMeetTheBurstConditions := by
  refine ⟨fun p => valid_defaults, fun p hv hb => ?_, rfl, rfl, rfl⟩
  obtain ⟨-, hcols, -⟩ := Params.bounds_of_valid hv
  simp only [Config.defaultBiasWrites] at hb
  simp only [Params.lineCycles]
  omega

/-- An outcome seen through a function has a next state exactly when the outcome has. -/
theorem mapNext_eq_next {σ τ : Type} {f : σ → τ} {r : Host.Outcome σ Fault Refusal} {y : τ} :
    mapNext f r = .next y ↔ ∃ x, r = .next x ∧ f x = y := by
  cases r <;> simp

/-- Under a valid configuration the step relation is a cycle under it. -/
theorem stepUnder_eq_next (hv : cfg.Valid) {b' : Block} :
    stepUnder cfg b = .next b' ↔ cycleUnlessEnded (b.under cfg) = .next (b'.under cfg) := by
  simp only [stepUnder, hv, mapNext_eq_next]
  refine ⟨?_, fun h => ⟨_, h, rfl⟩⟩
  rintro ⟨t, ht, rfl⟩
  have hstep : step (b.under cfg) = .next t := by rw [step_eq, Block.under_cfg, hv]; exact ht
  obtain rfl : t.cfg = cfg := (step_inv hstep).2.1
  exact ht

/-- Settles O53: by what `step` and `stepUnder` are. -/
theorem configurationIsAParameter : Obligations.ConfigurationIsAParameter := by
  refine ⟨fun cfg b => ⟨fun c hc => by simp only [stepUnder, hc], fun hv b' => stepUnder_eq_next hv, fun t => ?_⟩,
    fun cfg => rfl⟩
  rw [step, mapNext_eq_next]
  exact exists_congr fun b' => and_congr_right fun _ => eq_comm

/-! ### The hold and the reset -/

/-- Settles O47: the operation by its rule, a host cycle by its registers. -/
theorem holdFlushesAndCounts : Obligations.HoldFlushesAndCounts := by
  refine ⟨fun s => rfl, fun s t h ht => ?_⟩
  rw [now_of_hostStep h ht, host_effect]
  refine ⟨fun hr => if_pos (decide_eq_true hr), fun hr => ?_⟩
  rw [if_neg (by simpa [State.sensorRst] using hr)]
  split <;> rfl

/-- Settles O55: the operations by their rules, the steps by the inversion of a step. -/
theorem heldAndReset : Obligations.HeldAndReset := by
  refine ⟨fun s => rfl, fun s => rfl, fun s t h ht => ?_, fun s t h ht hr => ?_⟩ <;>
    obtain ⟨-, -, -, -, -, hx⟩ := step_inv h <;>
    rcases hx with ⟨ht', hn⟩ | ⟨ht', -⟩ | ⟨ht', -, -, hn⟩ | ⟨hc, -⟩
  · exact hn
  · cases ht.symm.trans ht'
  · cases ht.symm.trans ht'
  · cases ht.symm.trans hc.turn
  · cases ht.symm.trans ht'
  · cases ht.symm.trans ht'
  · exact hn
  · cases hr.symm.trans hc.sensorRst

/-- Settles O56: the reset values, and the outputs they give once the hold is over. -/
theorem resetLeavesTheResetValues : Obligations.ResetLeavesTheResetValues := by
  refine ⟨fun cfg => ⟨rfl, rfl⟩, fun s hr hreset hcq hbq => ?_⟩
  obtain ⟨hpower, hframe, -, hcmd, hbias, -⟩ := hreset
  have hrun : s.Running := by simpa [State.sensorRst] using hr
  rw [pins_of_running hrun, signals_of_running hrun]
  simp only [Pins.running, Signals.running, Regs.ready, Regs.cmdDone, Regs.biasDone, Regs.latchEn, hpower, hframe, hcmd,
    hbias, hcq, hbq]
  refine ⟨rfl, rfl, rfl, rfl, ext_zero _, ext_zero _, rfl, rfl, rfl⟩

/-- Settles O57: each invariant by its own lemma about the reset values. -/
theorem resetMeetsTheInvariants : Obligations.ResetMeetsTheInvariants := fun cfg =>
  ⟨⟨rfl, Regs.Ok.reset cfg []⟩, Regs.CmdSchedule.reset, Regs.BiasSchedule.reset cfg, Regs.BiasScheduleOneRow.reset cfg,
    Regs.BiasStream.reset cfg, Regs.OnTime.reset cfg, Regs.Aligned.reset cfg, nofun⟩

/-! ### Bit functions and delays -/

/-- The bit a serializer sends first, and what is left of the word (R12). -/
theorem ext_and_shift {w : Nat} (v : BitVec w) :
    ext .msbFirst v = v.getLsbD (w - 1) ∧ ext .lsbFirst v = v.getLsbD 0 ∧
      (shift .msbFirst v).toNat = 2 * v.toNat % 2 ^ w ∧ (shift .lsbFirst v).toNat = v.toNat / 2 := by
  refine ⟨BitVec.msb_eq_getLsbD_last v, rfl, ?_, ?_⟩
  · simp [shift, Nat.shiftLeft_eq, Nat.mul_comm]
  · simp [shift, Nat.shiftRight_eq_div_pow]

/-- A delay is the floor of its time in cycles, and one cycle where that would be none (R9). -/
theorem delay_bounds (p : Params) (us : Nat) :
    (1000000 ≤ us * p.clkFreqHz → p.delay us * 1000000 ≤ us * p.clkFreqHz ∧
      us * p.clkFreqHz < (p.delay us + 1) * 1000000) ∧
    (us * p.clkFreqHz < 1000000 → p.delay us = 1) := by
  simp only [Params.delay]
  omega

/-- Settles O60: the bit functions at every width, the delays by arithmetic. -/
theorem bitFunctionsAndDelays : Obligations.BitFunctionsAndDelays := by
  refine ⟨getLsbD_rev14, fun v => BitVec.reverse_reverse_eq, ext_and_shift, ext_and_shift,
    fun p us => ⟨Params.delay_pos p us, delay_bounds p us⟩, fun p hclk hinit h3v3 h2v5 => ?_⟩
  simp [Params.readyCycle, Params.dInit, Params.d3v3, Params.d2v5, Params.delay, hclk, hinit, h3v3, h2v5]

end Sys2Proof.Machine
end

section
/-! PROOF. The operations of the units, one cycle each: what they schedule (sections 2 of the units' chapters). -/

namespace Sys2Proof.Machine

variable {s : State}

/-- A legal operation completes with its effect scheduled. -/
theorem exec_eq_of_effectOf {i : Instr} {r : Regs} (h : s.Legal i) (he : effectOf i s s.nxt = r) :
    exec i s = .next { s with nxt := r } := by
  rw [exec_of_legal i s h, State.sched, he]

/-- A queue is ready for a push while it is below its depth (R31). -/
theorem wRdy_iff {α : Type} {q : List α} {depth : Nat} : wRdy q depth = true ↔ q.length < depth := decide_eq_true_iff

/-! ### PowerSequencer -/

/-- Settles O9: `d <= ps_cnt + 1` is `ps_cnt >= d - 1`. -/
theorem powerStatesAdvance : Obligations.PowerStatesAdvance := by
  intro s
  simp only [Nat.sub_le_iff_le_add]
  exact ⟨exec_eq_of_effectOf trivial (effectOf_psInit s _), exec_eq_of_effectOf trivial (effectOf_psRail3v3 s _),
    exec_eq_of_effectOf trivial (effectOf_psRail2v5 s _)⟩

/-! ### Serializers -/

/-- Settles O13: by the effects of the serializers' operations. -/
theorem serializerLoadsAndEnds : Obligations.SerializerLoadsAndEnds :=
  ⟨fun s x => exec_eq_of_effectOf trivial (effectOf_serIdle s _ x),
    fun s _ _ h => exec_eq_of_effectOf (List.ne_nil_of_mem (h ▸ List.mem_cons_self)) (effectOf_serLoad_cmd s _ h),
    fun s _ _ h => exec_eq_of_effectOf (List.ne_nil_of_mem (h ▸ List.mem_cons_self)) (effectOf_serLoad_bias s _ h),
    fun _ => rfl, fun _ => rfl⟩

/-! ### SampleDeserializer -/

/-- A bit is taken at the low end, the bits before it move up. -/
theorem accumulate_eq_shiftLeft_or (a : Sample) (lane : Bool) :
    accumulate a lane = a <<< 1 ||| BitVec.setWidth 14 (BitVec.ofBool lane) := by
  refine BitVec.eq_of_getLsbD_eq fun i hi => ?_
  cases i with
  | zero => simp [accumulate]
  | succ n =>
    simp [accumulate, hi, BitVec.getLsbD_eq_getElem (Nat.lt_of_succ_lt hi)]

/-- The old pair is still pending unless its last byte leaves in this cycle (R92). -/
theorem overruns_eq (s : State) :
    s.overruns = (s.now.des.haveData && !(s.bwRdy && s.now.des.emitSt == .oddHigh)) := by
  rw [State.overruns, State.emitsOddHigh]
  cases s.now.des.haveData <;> rfl

/-- Settles O18: by the effects of the capture operations, with the overrun condition written out. -/
theorem accumulateAndCapture : Obligations.AccumulateAndCapture := by
  simp only [Obligations.AccumulateAndCapture, ← accumulate_eq_shiftLeft_or]
  refine ⟨fun _ => rfl, fun s => exec_eq_of_effectOf trivial ((effectOf_desCap s _).trans ?_)⟩
  rw [overruns_eq]
  rfl

/-- Settles O22: by the effects of the emit operations. -/
theorem emitHighBytesAndIdle : Obligations.EmitHighBytesAndIdle :=
  ⟨fun _ => rfl, fun _ h => exec_eq_of_effectOf h (effectOf_emitEvenHi _ h),
    fun _ h => exec_eq_of_effectOf h (effectOf_emitOddHi _ h)⟩

/-! ### FrameController -/

/-- Settles O30: by the effects of the two counting operations. -/
theorem initAndInterFrameCount : Obligations.InitAndInterFrameCount := fun s =>
  ⟨exec_eq_of_effectOf trivial ((effectOf_fcInit s _).trans (apply_ite s.nxt.setFrame _ _ _).symm),
    exec_eq_of_effectOf trivial (effectOf_fcInterframe s _)⟩

/-- The command words of a valid configuration are taken whole (R10, R65). -/
theorem cmdWord?_toNat (hv : s.cfg.Valid) : ∃ w, s.cfg.cmdWord? s.now.frame.cmdIdx = some w ∧
    s.cfg.cmdWords[s.now.frame.cmdIdx.val]? = some w.toNat := by
  obtain ⟨-, hwords, -⟩ := (configurationsAreChecked s.cfg).1.1 hv
  have hk : s.now.frame.cmdIdx.val < s.cfg.cmdWords.length := by
    rw [Params.length_cmdWords hv]; exact s.now.frame.cmdIdx.isLt
  refine ⟨_, by rw [Params.cmdWord?, List.getElem?_eq_getElem hk, Option.map_some], ?_⟩
  rw [List.getElem?_eq_getElem hk, BitVec.toNat_ofNat, Nat.mod_eq_of_lt (hwords _ (List.getElem_mem hk))]

/-- A fault raised in a cycle without one is the fault scheduled (R134). -/
theorem raised_of_none {r : Regs} (h : r.fault = none) (f : FaultRecord) : raised r f = some f := by
  rw [raised, h]

/-- Settles O31: a full queue or not decides between the fault and the push. -/
theorem commandWordsArePushed : Obligations.CommandWordsArePushed := by
  refine ⟨fun s hv hq => ?_, fun s hv hq hf => ?_, fun s => ?_⟩
  · obtain ⟨w, hw, hnat⟩ := cmdWord?_toNat (s := s) hv
    refine ⟨w, hnat, exec_eq_of_effectOf (legal_frameOp hv (st := Fc.sendCmd) rfl) ?_⟩
    rw [effectOf_fcSendcmd _ hw, if_pos (wRdy_iff.2 hq)]
    rfl
  · obtain ⟨w, hw, -⟩ := cmdWord?_toNat (s := s) hv
    refine exec_eq_of_effectOf (legal_frameOp hv (st := Fc.sendCmd) rfl) ?_
    rw [effectOf_fcSendcmd _ hw, if_neg (mt wRdy_iff.1 (Nat.not_lt_of_le hq)), raised_of_none hf]
    rfl
  · refine exec_eq_of_effectOf trivial ((effectOf_fcSendcmdAdvance s _).trans ?_)
    rw [← apply_ite s.nxt.setFrame, if_congr Fin.ext_iff rfl rfl]
    rfl

/-- What a counted cycle of a wait of `len` cycles before a line schedules, whichever of the two it is (R109, R111). -/
theorem exec_wait {i : Instr} {len : Nat} {r : Regs}
    (h : (i = .fcWaitFrameStart ∧ len = s.cfg.cmdToLineStart ∧ s.now.cmdDone = true) ∨
      (i = .fcWaitline ∧ len = s.cfg.lineStartOffset))
    (hr : triggered s len (s.nxt.setFrame (counted s len s.nxt.frame)) = r) :
    exec i s = .next { s with nxt := r } := by
  rcases h with ⟨rfl, rfl, hdone⟩ | ⟨rfl, rfl⟩
  · exact exec_eq_of_effectOf trivial ((effectOf_fcWaitFrameStart s _).trans ((if_pos hdone).trans hr))
  · exact exec_eq_of_effectOf trivial ((effectOf_fcWaitline s _).trans hr)

/-- Settles O33: by what the trigger of a wait does to the registers of a counted cycle. -/
theorem waitsCountAndTrigger : Obligations.WaitsCountAndTrigger := by
  refine ⟨fun s hd => exec_eq_of_effectOf trivial ((effectOf_fcWaitFrameStart s _).trans (if_neg (by simp [hd]))),
    fun s i len h => ⟨fun hne => exec_wait h ?_, fun heq ha => exec_wait h ?_, fun heq ha hf => exec_wait h ?_⟩⟩
  · rw [triggered, if_neg hne]; rfl
  · rw [triggered, if_pos heq, ha]; rfl
  · rw [triggered, if_pos heq, if_pos ha, raised_of_none (by exact hf)]; rfl

/-- Settles O34: by the effect of FC.READLINE. -/
theorem readLineCountsRows : Obligations.ReadLineCountsRows := fun s =>
  exec_eq_of_effectOf trivial (effectOf_fcReadline s _)

/-! ### Bias injection -/

/-- Settles O36: a valid configuration's bias value is taken whole (R10, R65). -/
theorem burstsWriteAndStrobe : Obligations.BurstsWriteAndStrobe := by
  refine ⟨fun s hv hq => ⟨s.cfg.biasWord, ?_, exec_eq_of_effectOf trivial ?_⟩,
    fun s hq hf => exec_eq_of_effectOf trivial ?_, fun s => exec_eq_of_effectOf trivial (effectOf_biasStrobe s _)⟩
  · obtain ⟨-, -, hbias, -⟩ := (configurationsAreChecked s.cfg).1.1 hv
    rw [Params.biasWord, BitVec.toNat_ofNat, Nat.mod_eq_of_lt hbias]
  · rw [effectOf_biasWrite, if_pos (wRdy_iff.2 hq)]
    rfl
  · rw [effectOf_biasWrite, if_neg (mt wRdy_iff.1 (Nat.not_lt_of_le hq)), raised_of_none hf]
    rfl

end Sys2Proof.Machine
end

section
/-! PROOF. The order of a cycle's operations is irrelevant (R13): each unit updates the scheduled registers field by
field, and the updates of two units commute. -/

namespace Sys2Proof.Machine

variable {s : State} {r : Regs}

/-! ### Updates, field by field -/

/-- What a unit's operation does to what the cycle has scheduled for each register; a field it does not name stays. -/
structure Update where
  power : Power → Power := id
  frame : Frame → Frame := id
  inj : Injector → Injector := id
  cmdSer : Serializer 14 → Serializer 14 := id
  biasSer : Serializer 7 → Serializer 7 := id
  des : Deserializer → Deserializer := id
  cmdQ : List CmdWord → List CmdWord := id
  biasQ : List BiasWord → List BiasWord := id
  bridgeQ : List Byte → List Byte := id
  fault : Option FaultRecord → Option FaultRecord := id
  overrunCount : Nat → Nat := id

/-- The registers after an update. -/
def Update.apply (u : Update) (r : Regs) : Regs where
  power := u.power r.power
  frame := u.frame r.frame
  inj := u.inj r.inj
  cmdSer := u.cmdSer r.cmdSer
  biasSer := u.biasSer r.biasSer
  des := u.des r.des
  cmdQ := u.cmdQ r.cmdQ
  biasQ := u.biasQ r.biasQ
  bridgeQ := u.bridgeQ r.bridgeQ
  rstCnt := r.rstCnt
  hostStream := r.hostStream
  fault := u.fault r.fault
  overrunCount := u.overrunCount r.overrunCount
  cycle := r.cycle

/-! ### The update of each unit -/

/-- The PowerSequencer's update. -/
def powerUpdate (s : State) : Update where
  power := fun p => (effectOf (powerOp s.now.power.state) s (s.now.setPower p)).power

/-- The PowerSequencer's operation is its update. -/
theorem effectOf_powerOp : effectOf (powerOp s.now.power.state) s r = (powerUpdate s).apply r := by
  cases hp : s.now.power.state <;> simp [powerUpdate, hp, powerOp] <;> rfl

/-- The CommandSerializer's operation. -/
def cmdSerOp (s : State) : Instr :=
  serOp .cmd s.now.cmdSer.haveWord (rRdy s.now.cmdQ) (s.now.cmdSer.bitcnt + 1 == 14)

/-- Its update: a load removes the oldest word. -/
def cmdSerUpdate (s : State) : Update where
  cmdSer := fun x => (effectOf (cmdSerOp s) s (s.now.setCmdSer x)).cmdSer
  cmdQ := fun q => if Rtl.loads s.now.cmdSer s.now.cmdQ then q.tail else q

/-- The CommandSerializer's operation is its update. -/
theorem effectOf_cmdSerOp : effectOf (cmdSerOp s) s r = (cmdSerUpdate s).apply r := by
  cases hw : s.now.cmdSer.haveWord with
  | false =>
    cases hq : s.now.cmdQ with
    | nil => simp [cmdSerUpdate, cmdSerOp, serOp, hw, hq, rRdy, Rtl.loads]; rfl
    | cons w q => simp [cmdSerUpdate, cmdSerOp, serOp, hw, hq, rRdy, Rtl.loads, effectOf_serLoad_cmd s _ hq]; rfl
  | true =>
    cases hl : s.now.cmdSer.bitcnt + 1 == 14 <;> simp [cmdSerUpdate, cmdSerOp, serOp, hw, hl, Rtl.loads] <;> rfl

/-- The BiasSerializer's operation. -/
def biasSerOp (s : State) : Instr :=
  serOp .bias s.now.biasSer.haveWord (rRdy s.now.biasQ) (s.now.biasSer.bitcnt + 1 == 7)

/-- Its update. -/
def biasSerUpdate (s : State) : Update where
  biasSer := fun x => (effectOf (biasSerOp s) s (s.now.setBiasSer x)).biasSer
  biasQ := fun q => if Rtl.loads s.now.biasSer s.now.biasQ then q.tail else q

/-- The BiasSerializer's operation is its update. -/
theorem effectOf_biasSerOp : effectOf (biasSerOp s) s r = (biasSerUpdate s).apply r := by
  cases hw : s.now.biasSer.haveWord with
  | false =>
    cases hq : s.now.biasQ with
    | nil => simp [biasSerUpdate, biasSerOp, serOp, hw, hq, rRdy, Rtl.loads]; rfl
    | cons w q => simp [biasSerUpdate, biasSerOp, serOp, hw, hq, rRdy, Rtl.loads, effectOf_serLoad_bias s _ hq]; rfl
  | true =>
    cases hl : s.now.biasSer.bitcnt + 1 == 7 <;> simp [biasSerUpdate, biasSerOp, serOp, hw, hl, Rtl.loads] <;> rfl

/-- The update of the capture operation: a capture sets `have_data`. -/
def captureUpdate (s : State) : Update where
  des := fun d => { d with
    accE := Rtl.acc s s.now.des.accE s.draw.laneE
    accO := Rtl.acc s s.now.des.accO s.draw.laneO
    dcnt := if s.now.latchEn && s.now.des.dcnt != 13 then s.now.des.dcnt + 1 else 0
    outE := if s.now.captures then rev14 (accumulate s.now.des.accE s.draw.laneE) else d.outE
    outO := if s.now.captures then rev14 (accumulate s.now.des.accO s.draw.laneO) else d.outO
    haveData := s.now.captures || d.haveData }
  overrunCount := fun n => if s.now.captures && s.overruns then s.now.overrunCount + 1 else n

/-- The capture operation is its update. -/
theorem effectOf_captureOp :
    effectOf (captureOp s.now.latchEn (s.now.des.dcnt == 13)) s r = (captureUpdate s).apply r := by
  cases hl : s.now.latchEn with
  | false => simp [captureOp, Update.apply, captureUpdate, Rtl.acc, Regs.captures, hl]; rfl
  | true =>
    cases hd : s.now.des.dcnt == 13 <;>
      simp [captureOp, Update.apply, captureUpdate, Rtl.acc, Regs.captures, hl, hd, bne] <;> rfl

/-- The update of the emit operation: the last byte of a pair clears `have_data` unless a capture sets it. -/
def emitUpdate (s : State) : Update where
  des := fun d => { d with
    haveData := (s.now.captures || !s.emitsOddHigh) && d.haveData
    emitSt := if (Rtl.emitted s).isSome then Rtl.emitSucc s.now.des.emitSt else d.emitSt }
  bridgeQ := fun q => q ++ (Rtl.emitted s).toList

/-- The emit operation is its update. -/
theorem effectOf_emitOp :
    effectOf (emitOp s.now.des.haveData s.bwRdy s.now.des.emitSt) s r = (emitUpdate s).apply r := by
  cases hh : s.now.des.haveData with
  | false => simp [emitOp, Update.apply, emitUpdate, Rtl.emitted, State.emitsOddHigh, hh]
  | true =>
    cases hb : s.bwRdy with
    | false => simp [emitOp, Update.apply, emitUpdate, Rtl.emitted, State.emitsOddHigh, hh, hb]
    | true =>
      have hroom : s.now.bridgeQ.length < s.cfg.bridgeDepth := by
        simp only [State.bwRdy, Bool.and_eq_true] at hb
        exact wRdy_iff.1 hb.2
      cases he : s.now.des.emitSt <;> cases hc : s.now.captures <;>
        simp [emitOp, Update.apply, emitUpdate, Rtl.emitted, Rtl.emitSucc, State.emitsOddHigh, hh, hb, he, hc,
          effectOf_emitEvenLo _ hroom, effectOf_emitEvenHi _ hroom, effectOf_emitOddLo _ hroom,
          effectOf_emitOddHi _ hroom] <;> rfl

/-- The fault of a cycle when a unit may raise one more (R134). -/
def raisedOn (new old : Option FaultRecord) : Option FaultRecord :=
  match new, old with
  | none, old => old
  | some f, none => some f
  | some f, some g => some (g.first f)

/-- Raising a fault, by the fault of the cycle alone. -/
theorem raised_eq_raisedOn (f : FaultRecord) : raised r f = raisedOn (some f) r.fault := by
  rw [raised]; cases r.fault <;> rfl

/-- What the word of the FrameController does, be its state named or reserved (R66). -/
def frameEffect (s : State) : Regs → Regs :=
  match frameOp s.now.frame.state with
  | some i => effectOf i s
  | none => fun r => r.setFault (raised r ⟨.illegalState, s.now.cycle, s.now.frame.state.toNat⟩)

/-- The fault it raises. -/
def frameRaises (s : State) : Option FaultRecord :=
  if 9 ≤ s.now.frame.state.toNat then some ⟨.illegalState, s.now.cycle, s.now.frame.state.toNat⟩ else frameFault s

/-- Its update: SendCmd pushes a word where there is room, the trigger starts a burst where none is active. -/
def frameUpdate (s : State) : Update where
  frame := fun f => (frameEffect s (s.now.setFrame f)).frame
  inj := fun j => if s.biasTrigger && !s.now.inj.active then ⟨true, false, 0⟩ else j
  cmdQ := fun q => if wRdy s.now.cmdQ s.cfg.cmdQDepth then q ++ (Rtl.cmdPush s).toList else q
  fault := raisedOn (frameRaises s)

/-- In a state that raises no trigger and pushes no word the update is that of the FrameController's own registers. -/
theorem frameUpdate_of_quiet (h9 : ¬ 9 ≤ s.now.frame.state.toNat) (ht : s.biasTrigger = false)
    (hp : s.now.frame.state ≠ Fc.sendCmd) : (frameUpdate s).apply r =
      r.setFrame (frameEffect s (s.now.setFrame r.frame)).frame := by
  simp [Update.apply, frameUpdate, frameRaises, frameFault, raisedOn, h9, ht, cmdPush_of_ne hp, Regs.setFrame]

/-- A reserved state only raises its fault. -/
theorem frameEffect_of_reserved (hn : frameOp s.now.frame.state = none) :
    frameEffect s r = (frameUpdate s).apply r := by
  have h9 := (frameOp_eq_none_iff _).1 hn
  have hne {st : BitVec 4} (hst : st.toNat < 9) : s.now.frame.state ≠ st := fun h => by rw [h] at h9; omega
  have ht : s.biasTrigger = false := Bool.eq_false_iff.2 fun h =>
    (waits_of_biasTrigger h).elim (fun h => hne (by decide) h.1) (hne (by decide))
  simp [frameEffect, hn, Update.apply, frameUpdate, frameRaises, ht, h9, raised_eq_raisedOn,
    cmdPush_of_ne (hne (st := Fc.sendCmd) (by decide))]
  rfl

/-- A wait counts, and at its trigger starts a burst or raises BIAS_RETRIGGER (R109, R111, R116). -/
theorem frameEffect_of_wait {len : Nat} (h9 : ¬ 9 ≤ s.now.frame.state.toNat) (hp : s.now.frame.state ≠ Fc.sendCmd)
    (ht : s.biasTrigger = (s.now.frame.lineCnt + s.cfg.biasToLatch + 1 == len))
    (he : frameEffect s = fun r => triggered s len (r.setFrame (counted s len r.frame))) :
    frameEffect s r = (frameUpdate s).apply r := by
  by_cases h : s.now.frame.lineCnt + s.cfg.biasToLatch + 1 = len <;> cases ha : s.now.inj.active <;>
    simp [he, triggered, Update.apply, frameUpdate, frameRaises, frameFault, raised_eq_raisedOn, raisedOn, h9, ht, h,
      ha, cmdPush_of_ne hp] <;> rfl

/-- SendCmd pushes its word or raises CMD_QUEUE_OVERFLOW (R106). -/
theorem frameEffect_of_sendCmd (hv : s.cfg.Valid) (hs : s.now.frame.state = Fc.sendCmd)
    (he : frameEffect s = effectOf .fcSendcmd s) : frameEffect s r = (frameUpdate s).apply r := by
  obtain ⟨w, hw⟩ := cmdWord?_of_valid (s := s) hv
  cases hq : wRdy s.now.cmdQ s.cfg.cmdQDepth <;>
    simp [he, effectOf_fcSendcmd _ hw, Update.apply, frameUpdate, frameRaises, frameFault, raised_eq_raisedOn, raisedOn,
      State.biasTrigger, Rtl.cmdPush, hs, hw, hq] <;> rfl

/-- The FrameController's word is its update, in every state. -/
theorem frameEffect_eq (hv : s.cfg.Valid) : frameEffect s r = (frameUpdate s).apply r := by
  cases hi : frameOp s.now.frame.state with
  | none => exact frameEffect_of_reserved hi
  | some i =>
    have h9 : ¬ 9 ≤ s.now.frame.state.toNat := by rw [← frameOp_eq_none_iff, hi]; simp
    have he : frameEffect s = effectOf i s := by simp [frameEffect, hi]
    rcases frameOp_cases hi with ⟨hs, rfl⟩ | ⟨hs, rfl⟩ | ⟨hs, rfl⟩ | ⟨hs, rfl⟩ | ⟨hs, rfl⟩ | ⟨hs, rfl⟩ |
      ⟨hs, rfl⟩ | ⟨hs, rfl⟩ | ⟨hs, rfl⟩
    · rw [frameUpdate_of_quiet h9 (by simp [State.biasTrigger, hs]) (by simp [hs]), he]
      simp only [effectOf_fcPowerup]
      split <;> rfl
    · rw [frameUpdate_of_quiet h9 (by simp [State.biasTrigger, hs]) (by simp [hs]), he]
      simp only [effectOf_fcInit]
      split <;> rfl
    · exact frameEffect_of_sendCmd hv hs he
    · rw [frameUpdate_of_quiet h9 (by simp [State.biasTrigger, hs]) (by simp [hs]), he]
      rfl
    · rw [frameUpdate_of_quiet h9 (by simp [State.biasTrigger, hs]) (by simp [hs]), he]
      simp only [effectOf_fcSendcmdAdvance]
      split <;> rfl
    · cases hd : s.now.cmdDone with
      | true =>
        exact frameEffect_of_wait (len := s.cfg.cmdToLineStart) h9 (by simp [hs]) (by simp [State.biasTrigger, hs, hd])
          (he.trans (funext fun r => (effectOf_fcWaitFrameStart s r).trans (if_pos hd)))
      | false =>
        rw [frameUpdate_of_quiet h9 (by simp [State.biasTrigger, hs, hd]) (by simp [hs]), he]
        simp [effectOf_fcWaitFrameStart, hd]
        rfl
    · rw [frameUpdate_of_quiet h9 (by simp [State.biasTrigger, hs]) (by simp [hs]), he]
      simp only [effectOf_fcReadline]
      rfl
    · exact frameEffect_of_wait (len := s.cfg.lineStartOffset) h9 (by simp [hs]) (by simp [State.biasTrigger, hs])
        (he.trans (funext fun r => effectOf_fcWaitline s r))
    · rw [frameUpdate_of_quiet h9 (by simp [State.biasTrigger, hs]) (by simp [hs]), he]
      simp only [effectOf_fcInterframe]
      rfl

/-- The update of the bias injection: a write pushes a word where there is room. -/
def biasUpdate (s : State) : Update where
  inj := fun j => (effectOf (biasOp s.now.inj.active s.now.inj.phase) s (s.now.setInj j)).inj
  biasQ := fun q => if wRdy s.now.biasQ s.cfg.biasQDepth then q ++ (Rtl.biasPush s).toList else q
  fault := raisedOn (biasFault s)

/-- The bias injection's operation is its update. -/
theorem effectOf_biasOp : effectOf (biasOp s.now.inj.active s.now.inj.phase) s r = (biasUpdate s).apply r := by
  cases ha : s.now.inj.active with
  | false => simp [Update.apply, biasUpdate, biasOp, biasFault, Rtl.biasPush, ha, raisedOn]
  | true =>
    cases hp : s.now.inj.phase with
    | false =>
      cases hq : wRdy s.now.biasQ s.cfg.biasQDepth <;>
        simp [Update.apply, biasUpdate, biasOp, biasFault, Rtl.biasPush, ha, hp, hq, raised_eq_raisedOn, raisedOn] <;>
        rfl
    | true => simp [Update.apply, biasUpdate, biasOp, biasFault, Rtl.biasPush, ha, hp, raisedOn]; rfl

/-! ### The updates commute -/

/-- The update of each format's unit. -/
def unitUpdate (s : State) : Format → Update
  | .selPs => powerUpdate s
  | .selSer .cmd => cmdSerUpdate s
  | .selSer .bias => biasSerUpdate s
  | .selDes => captureUpdate s
  | .selEmit => emitUpdate s
  | .selFc => frameUpdate s
  | .selBias => biasUpdate s
  | .selSensor | .selHost | .event => {}

/-- A pop and a push of one cycle commute on a queue that holds a word. -/
theorem tail_append_comm {α : Type} {pop push : Bool} {q ws : List α} (h : pop = true → q ≠ []) :
    (if pop then (if push then q ++ ws else q).tail else if push then q ++ ws else q) =
      if push then (if pop then q.tail else q) ++ ws else if pop then q.tail else q := by
  cases pop with
  | false => rfl
  | true =>
    cases push with
    | false => rfl
    | true => simp [List.tail_append_of_ne_nil (h rfl)]

/-- A load takes a word from a queue that held one at the start of the cycle. -/
theorem ne_nil_of_loads {w : Nat} {x : Serializer w} {q : List (BitVec w)} (h : Rtl.loads x q = true) : q ≠ [] := by
  rintro rfl
  simp [Rtl.loads, rRdy] at h

/-- A load and a push of `cmd_q` commute. -/
theorem cmdSer_frame_comm (h : s.now.cmdQ ≠ [] → r.cmdQ ≠ []) :
    (cmdSerUpdate s).apply ((frameUpdate s).apply r) = (frameUpdate s).apply ((cmdSerUpdate s).apply r) := by
  simp only [Update.apply, cmdSerUpdate, frameUpdate, id]
  congr 1
  exact tail_append_comm fun hl => h (ne_nil_of_loads hl)

/-- A load and a push of `bias_q` commute. -/
theorem biasSer_bias_comm (h : s.now.biasQ ≠ [] → r.biasQ ≠ []) :
    (biasSerUpdate s).apply ((biasUpdate s).apply r) = (biasUpdate s).apply ((biasSerUpdate s).apply r) := by
  simp only [Update.apply, biasSerUpdate, biasUpdate, id]
  congr 1
  exact tail_append_comm fun hl => h (ne_nil_of_loads hl)

/-- A capture sets `have_data`, and the emission clears it only without one (R91, R98). -/
theorem capture_emit_comm :
    (captureUpdate s).apply ((emitUpdate s).apply r) = (emitUpdate s).apply ((captureUpdate s).apply r) := by
  simp only [Update.apply, captureUpdate, emitUpdate, id]
  congr 2
  cases s.now.captures <;> rfl

/-- Two faults of different priority are recorded alike in either order (R134). -/
theorem raisedOn_comm {f g : Option FaultRecord} (h : ∀ a ∈ f, ∀ b ∈ g, a.code.rank ≠ b.code.rank)
    (o : Option FaultRecord) : raisedOn f (raisedOn g o) = raisedOn g (raisedOn f o) := by
  cases f with
  | none => rfl
  | some a =>
    cases g with
    | none => rfl
    | some b =>
      have hne := h a rfl b rfl
      cases o <;> grind [raisedOn, FaultRecord.first]

/-- The bias injection raises BIAS_QUEUE_OVERFLOW alone (R114). -/
theorem code_of_biasFault {f : FaultRecord} (h : biasFault s = some f) : f.code = .biasQueueOverflow := by
  rw [biasFault] at h
  split at h <;> cases h
  rfl

/-- The FrameController never raises it (R66, R106, R116). -/
theorem code_of_frameRaises {f : FaultRecord} (h : frameRaises s = some f) : f.code ≠ .biasQueueOverflow := by
  rw [frameRaises, frameFault] at h
  split_ifs at h <;> cases h <;> simp

/-- The FrameController's faults and the bias injection's have different priorities (R134). -/
theorem rank_frameRaises_ne : ∀ a ∈ frameRaises s, ∀ b ∈ biasFault s, a.code.rank ≠ b.code.rank := by
  intro a ha b hb
  have hne := code_of_frameRaises ha
  rw [code_of_biasFault hb]
  cases hc : a.code <;> simp_all [FaultCode.rank]

/-- A burst starts only where none is active, and there the bias injection is idle (R113, R116). -/
theorem frame_bias_comm :
    (frameUpdate s).apply ((biasUpdate s).apply r) = (biasUpdate s).apply ((frameUpdate s).apply r) := by
  simp only [Update.apply, frameUpdate, biasUpdate, id]
  congr 1
  · cases ha : s.now.inj.active <;> simp [biasOp]
  · exact raisedOn_comm rank_frameRaises_ne _

/-- Where a serializer is still to load, its queue holds a word if it did at the start of the cycle. -/
def QueuesReady (s : State) (ks : List Format) (r : Regs) : Prop :=
  (.selSer .cmd ∈ ks → s.now.cmdQ ≠ [] → r.cmdQ ≠ []) ∧ (.selSer .bias ∈ ks → s.now.biasQ ≠ [] → r.biasQ ≠ [])

/-- The updates of two units commute: but for four pairs of units they write different registers. -/
theorem unitUpdate_comm {k l : Format} {ks : List Format} (h : QueuesReady s (k :: l :: ks) r) :
    (unitUpdate s l).apply ((unitUpdate s k).apply r) = (unitUpdate s k).apply ((unitUpdate s l).apply r) := by
  obtain ⟨hcmd, hbias⟩ := h
  cases k with
  | selPs | selSensor | selHost | event => rcases l with _ | _ | _ | (_ | _) | _ | _ | _ | _ | _ <;> rfl
  | selSer x =>
    cases x with
    | cmd =>
      rcases l with _ | _ | _ | (_ | _) | _ | _ | _ | _ | _
      · exact (cmdSer_frame_comm (hcmd (by simp))).symm
      all_goals rfl
    | bias =>
      rcases l with _ | _ | _ | (_ | _) | _ | _ | _ | _ | _
      case selBias => exact (biasSer_bias_comm (hbias (by simp))).symm
      all_goals rfl
  | selDes =>
    rcases l with _ | _ | _ | (_ | _) | _ | _ | _ | _ | _
    case selEmit => exact capture_emit_comm.symm
    all_goals rfl
  | selEmit =>
    rcases l with _ | _ | _ | (_ | _) | _ | _ | _ | _ | _
    case selDes => exact capture_emit_comm
    all_goals rfl
  | selFc =>
    rcases l with _ | _ | _ | (_ | _) | _ | _ | _ | _ | _
    case selSer.cmd => exact cmdSer_frame_comm (hcmd (by simp))
    case selBias => exact frame_bias_comm.symm
    all_goals rfl
  | selBias =>
    rcases l with _ | _ | _ | (_ | _) | _ | _ | _ | _ | _
    case selFc => exact frame_bias_comm
    case selSer.bias => exact biasSer_bias_comm (hbias (by simp))
    all_goals rfl

/-- Only its own serializer empties a queue. -/
theorem unitUpdate_cmdQ_ne_nil {k : Format} (hk : k ≠ .selSer .cmd) {q : List CmdWord} (hq : q ≠ []) :
    (unitUpdate s k).cmdQ q ≠ [] := by
  rcases k with _ | _ | _ | (_ | _) | _ | _ | _ | _ | _
  case selSer.cmd => exact absurd rfl hk
  case selFc =>
    simp only [unitUpdate, frameUpdate]
    split
    · exact List.append_ne_nil_of_left_ne_nil hq _
    · exact hq
  all_goals exact hq

/-- The same of the bias queue. -/
theorem unitUpdate_biasQ_ne_nil {k : Format} (hk : k ≠ .selSer .bias) {q : List BiasWord} (hq : q ≠ []) :
    (unitUpdate s k).biasQ q ≠ [] := by
  rcases k with _ | _ | _ | (_ | _) | _ | _ | _ | _ | _
  case selSer.bias => exact absurd rfl hk
  case selBias =>
    simp only [unitUpdate, biasUpdate]
    split
    · exact List.append_ne_nil_of_left_ne_nil hq _
    · exact hq
  all_goals exact hq

/-- A unit's update leaves the queues ready for the units still to come. -/
theorem QueuesReady.apply {k : Format} {ks : List Format} (hk : k ∉ ks) (h : QueuesReady s (k :: ks) r) :
    QueuesReady s ks ((unitUpdate s k).apply r) := by
  obtain ⟨hcmd, hbias⟩ := h
  refine ⟨fun hmem hq => unitUpdate_cmdQ_ne_nil ?_ (hcmd (List.mem_cons_of_mem k hmem) hq),
    fun hmem hq => unitUpdate_biasQ_ne_nil ?_ (hbias (List.mem_cons_of_mem k hmem) hq)⟩ <;>
    exact fun heq => hk (heq ▸ hmem)

/-! ### Any order -/

/-- Steps that commute wherever they meet give the same result in every order. -/
theorem foldl_eq_of_perm {α β : Type} {f : α → β → α} {P : List β → α → Prop}
    (hperm : ∀ {l l' a}, l.Perm l' → P l a → P l' a) (hstep : ∀ {b l a}, P (b :: l) a → P l (f a b))
    (hcomm : ∀ {b c l a}, P (b :: c :: l) a → f (f a b) c = f (f a c) b) {l l' : List β} (h : l.Perm l') :
    ∀ a, P l a → l.foldl f a = l'.foldl f a := by
  induction h with
  | nil => exact fun _ _ => rfl
  | cons b _ ih => exact fun a ha => ih _ (hstep ha)
  | swap b c l => exact fun a ha => congrArg (l.foldl f) (hcomm ha)
  | trans h₁ _ ih₁ ih₂ => exact fun a ha => (ih₁ a ha).trans (ih₂ a (hperm h₁ ha))

/-- A word that decodes to a legal operation performs its update. -/
theorem runWord_of_update {w : SelWord} {i : Instr} {u : Update} (hd : decode w.bytes = .ok (i, []))
    (hl : s.startCycle.Legal i) (he : ∀ r, effectOf i s r = u.apply r) (f : Regs → Regs) :
    runWord w (s.startCycle.sched f) = .next ((s.startCycle.sched f).sched u.apply) := by
  rw [runWord_of_decode hd, exec_sched hl, ← funext he]
  rfl

/-- The FrameController's word performs its update, be its state named or reserved (R66). -/
theorem runWord_selFc (hv : s.cfg.Valid) (f : Regs → Regs) :
    runWord (selFc s) (s.startCycle.sched f) = .next ((s.startCycle.sched f).sched (frameUpdate s).apply) := by
  have he : frameEffect s = (frameUpdate s).apply := funext fun r => frameEffect_eq hv
  rw [← he, frameEffect]
  cases hi : frameOp s.now.frame.state with
  | some i => exact runWord_of_decode (decode_selFc s hi) _ ▸ exec_sched (legal_frameOp (s := s.startCycle) hv hi) f
  | none => simp only [runWord, decode_selFc_reserved s hi, State.raiseFault_eq_raised]; rfl

/-- Each word of a sensor cycle performs the update of its unit. -/
theorem runWord_of_mem_fetch (h : s.SensorCycle) {w : SelWord} (hw : w ∈ s.fetch) (f : Regs → Regs) :
    runWord w (s.startCycle.sched f) = .next ((s.startCycle.sched f).sched (unitUpdate s w.format).apply) := by
  rw [fetch_sensor h] at hw
  simp only [List.mem_cons, List.not_mem_nil, or_false] at hw
  rcases hw with rfl | rfl | rfl | rfl | rfl | rfl | rfl
  · exact runWord_of_update (decode_selPs s) (legal_powerOp _ _) (fun r => effectOf_powerOp) f
  · exact runWord_of_update (decode_selSer _ _ _) (legal_serOp_cmd s.startCycle _ _) (fun r => effectOf_cmdSerOp) f
  · exact runWord_of_update (decode_selSer _ _ _) (legal_serOp_bias s.startCycle _ _) (fun r => effectOf_biasSerOp) f
  · exact runWord_of_update (decode_selDes s) (legal_captureOp _ _ _) (fun r => effectOf_captureOp) f
  · exact runWord_of_update (decode_selEmit s) (legal_emitOp s.startCycle _ _) (fun r => effectOf_emitOp) f
  · exact runWord_selFc h.valid f
  · exact runWord_of_update (decode_selBias s) (legal_biasOp _ _ _) (fun r => effectOf_biasOp) f

/-- Words of a sensor cycle perform the updates of their units, one after the other. -/
theorem runWords_eq_foldl (h : s.SensorCycle) : ∀ (ws : List SelWord) (_ : ∀ w ∈ ws, w ∈ s.fetch) (f : Regs → Regs),
    runWords ws (s.startCycle.sched f) = .next (s.startCycle.sched fun r =>
      (ws.map SelWord.format).foldl (fun r k => (unitUpdate s k).apply r) (f r))
  | [], _, f => rfl
  | w :: ws, hws, f => by
    rw [runWords, runWord_of_mem_fetch h (hws w List.mem_cons_self), andThen_next, State.sched_sched,
      runWords_eq_foldl h ws (fun v hv => hws v (List.mem_cons_of_mem w hv))]
    rfl

/-- The seven formats of a sensor cycle. -/
theorem format_fetch (h : s.SensorCycle) : s.fetch.map SelWord.format =
    [.selPs, .selSer .cmd, .selSer .bias, .selDes, .selEmit, .selFc, .selBias] := by
  rw [fetch_sensor h]; rfl

/-- Settles O59: the units' updates commute, so every order of the words gives the same. -/
theorem orderOfUnitsIsIrrelevant : Obligations.OrderOfUnitsIsIrrelevant := by
  intro s ws h hperm
  have hformats := hperm.map SelWord.format
  have hnodup : (ws.map SelWord.format).Nodup := by
    rw [hformats.nodup_iff, format_fetch h]
    decide
  have key := foldl_eq_of_perm (f := fun r k => (unitUpdate s k).apply r)
    (P := fun ks r => ks.Nodup ∧ QueuesReady s ks r)
    (fun hp ⟨hn, hq⟩ => ⟨hp.nodup_iff.1 hn, fun hk => hq.1 (hp.mem_iff.2 hk), fun hk => hq.2 (hp.mem_iff.2 hk)⟩)
    (fun ⟨hn, hq⟩ => ⟨hn.of_cons, hq.apply (List.nodup_cons.1 hn).1⟩)
    (fun ⟨_, hq⟩ => unitUpdate_comm hq)
    hformats s.now ⟨hnodup, fun _ hq => hq, fun _ hq => hq⟩
  have hws := runWords_eq_foldl h ws (fun _ => hperm.mem_iff.1) id
  have hfetch := runWords_eq_foldl h s.fetch (fun _ => id) id
  exact hws.trans ((congrArg (fun r => Host.Outcome.next { s.startCycle with nxt := r }) key).trans hfetch.symm)

end Sys2Proof.Machine
end
